-- ==== Sys2Proof/Word.lean ====
section
/-! DEFINITION. The word types of the spec (00_scope.md R4, R5): every value is unsigned. -/

namespace Sys2Proof

/-- A byte: a general register, a timer, a memory cell, an immediate `kk` (R4 `REG_BITS`, R71). -/
abbrev Byte := BitVec 8

/-- A 16-bit word: an instruction, `I`, `PC`, a stack entry (R4, R70). -/
abbrev Word := BitVec 16

/-- A 4-bit field: a register index `x` or `y`, a count `n`, a key index (R71, R170). -/
abbrev Nibble := BitVec 4

/-- A 12-bit address field `nnn` (R71). -/
abbrev Addr := BitVec 12

/-- A reading of the time source, in seconds (R174; the type is the model's choice, assumption log 6). -/
abbrev Time := Rat

end Sys2Proof
end

