-- ==== Sys2Proof/Config.lean ====
section
/-! DEFINITION. What is fixed for the block: the parameters of 00_scope.md R4, and the two free values the spec leaves to
the outside (the random byte, the rounding of a tie). The font bytes stand in Machine/Font.lean. -/

namespace Sys2Proof.Config

/-- `MEM_SIZE`: bytes of memory (R4, R50). -/
@[simp] abbrev memSize : Nat := 4096

/-- `PROG_BASE`: the address of the first program byte (R4, R51). -/
@[simp] abbrev progBase : Nat := 512

/-- `MAX_PROG`: the largest program, `MEM_SIZE - PROG_BASE` (R4, R171). -/
@[simp] abbrev maxProg : Nat := 3584

/-- `STACK_DEPTH`: entries of the call stack (R4, R25). -/
@[simp] abbrev stackDepth : Nat := 16

/-- `GLYPH_BYTES`: bytes of a glyph (R4, R142). -/
@[simp] abbrev glyphBytes : Nat := 5

/-- `TICK_HZ`: logical ticks per second (R4, R174). -/
@[simp] abbrev tickHz : Nat := 60

/-- `SPEED_DEFAULT`: instructions per tick before the first SET_SPEED (R4, R37). -/
@[simp] abbrev speedDefault : Nat := 12

/-- The `n`-th byte the random source returns (R180: "a model treats each returned byte as a free input"). It has no body
on purpose: no proof can see a value of it. Assumption log 4. -/
opaque randomByte : Nat → Byte

/-- Whether the `n`-th free value, drawn for a tie of the tick count, rounds the tie up (R174: "How a tie ... rounds is not
in the source"). No body on purpose. Assumption log 5. -/
opaque tieRoundsUp : Nat → Bool

end Sys2Proof.Config
end

