-- ==== Sys2Proof/Syntax.lean ====
section
/-! DEFINITION. The instructions: one constructor per row of spec/opcode_table.json (30_encoding.md R75). A field's type is
exactly as wide as its encoding field (R71), so no term holds an operand the encoding does not admit. -/

namespace Sys2Proof

/-- The 35 rows of R75, in the table's order. `x`, `y` are register indices, `kk` an immediate byte, `nnn` an address,
`n` a sprite height (R71, R73). -/
inductive Instr where
  /-- `00E0` CLS, clear screen (R150). -/
  | cls
  /-- `0000` CLS0, the zero word: clear screen (R151). -/
  | cls0
  /-- `00EE` RET, return (R100). -/
  | ret
  /-- `1nnn` JP nnn, jump (R101). -/
  | jp (nnn : Addr)
  /-- `2nnn` CALL nnn, call (R102). -/
  | call (nnn : Addr)
  /-- `3xkk` SE Vx, kk, skip if equal to immediate (R103). -/
  | seImm (x : Nibble) (kk : Byte)
  /-- `4xkk` SNE Vx, kk, skip if not equal to immediate (R104). -/
  | sneImm (x : Nibble) (kk : Byte)
  /-- `5xy0` SE Vx, Vy, skip if registers equal (R105). -/
  | seReg (x y : Nibble)
  /-- `6xkk` LD Vx, kk, load immediate (R120). -/
  | ldImm (x : Nibble) (kk : Byte)
  /-- `7xkk` ADD Vx, kk, add immediate (R121). -/
  | addImm (x : Nibble) (kk : Byte)
  /-- `8xy0` LD Vx, Vy, move (R122). -/
  | ldReg (x y : Nibble)
  /-- `8xy1` OR Vx, Vy (R123). -/
  | orReg (x y : Nibble)
  /-- `8xy2` AND Vx, Vy (R124). -/
  | andReg (x y : Nibble)
  /-- `8xy3` XOR Vx, Vy (R125). -/
  | xorReg (x y : Nibble)
  /-- `8xy4` ADD Vx, Vy, add with carry out (R126). -/
  | addReg (x y : Nibble)
  /-- `8xy5` SUB Vx, Vy, subtract (R127). -/
  | subReg (x y : Nibble)
  /-- `8xy6` SHR Vx, shift right by one; `y` selects nothing (R128). -/
  | shr (x y : Nibble)
  /-- `8xy7` SUBN Vx, Vy, reverse subtract (R129). -/
  | subn (x y : Nibble)
  /-- `8xyE` SHL Vx, shift left by one; `y` selects nothing (R130). -/
  | shl (x y : Nibble)
  /-- `9xy0` SNE Vx, Vy, skip if registers not equal (R106). -/
  | sneReg (x y : Nibble)
  /-- `Annn` LD I, nnn, set index (R140). -/
  | ldI (nnn : Addr)
  /-- `Bnnn` JP V0, nnn, jump with offset (R107). -/
  | jpV0 (nnn : Addr)
  /-- `Cxkk` RND Vx, kk, random and mask (R131). -/
  | rnd (x : Nibble) (kk : Byte)
  /-- `Dxyn` DRW Vx, Vy, n, draw sprite (R152). -/
  | drw (x y n : Nibble)
  /-- `Ex9E` SKP Vx, skip if key pressed (R160). -/
  | skp (x : Nibble)
  /-- `ExA1` SKNP Vx, skip if key not pressed (R161). -/
  | sknp (x : Nibble)
  /-- `Fx07` LD Vx, DT, get delay timer (R162). -/
  | ldVxDt (x : Nibble)
  /-- `Fx0A` LD Vx, K, wait for key (R163). -/
  | ldVxK (x : Nibble)
  /-- `Fx15` LD DT, Vx, set delay timer (R164). -/
  | ldDtVx (x : Nibble)
  /-- `Fx18` LD ST, Vx, set sound timer (R165). -/
  | ldStVx (x : Nibble)
  /-- `Fx1E` ADD I, Vx, add to index (R141). -/
  | addI (x : Nibble)
  /-- `Fx29` LD F, Vx, index to font glyph (R142). -/
  | ldF (x : Nibble)
  /-- `Fx33` LD B, Vx, store BCD digits (R143). -/
  | ldB (x : Nibble)
  /-- `Fx55` LD [I], Vx, register dump (R144). -/
  | stRegs (x : Nibble)
  /-- `Fx65` LD Vx, [I], register load (R145). -/
  | ldRegs (x : Nibble)
  deriving DecidableEq, Repr

end Sys2Proof
end

