-- ==== Sys2Proof/WellFormed.lean ====
section
/-! DEFINITION. What is well formed before it reaches the machine. An instruction needs no check: every field of `Instr` is
exactly as wide as its encoding field and the spec accepts all its values (30_encoding.md R73, "all 16 values legal"; R78:
an encoding is a row or illegal), so there is no ill-formed term. A program, the argument of LOAD, has one check (R171). -/

namespace Sys2Proof

/-- Every instruction is well formed: the field types of `Instr` are the checks (R71, R73, R78). -/
abbrev Instr.WellFormed (_i : Instr) : Prop := True

/-- LOAD's check on its argument: the program fits in memory above 0x200 (46_host_operations.md R171). -/
abbrev ProgramFits (prog : List Byte) : Prop := prog.length ≤ Config.maxProg

end Sys2Proof
end

