-- ==== Sys2Proof/Decode.lean ====
section
/-! DEFINITION. Decoding and encoding of the 16-bit instruction word (30_encoding.md R70 to R78), the opcode map as a table
of match and mask (R75), and the byte order of a fetched word (20_memory.md R54). -/

namespace Sys2Proof

/-- What decoding answers: an instruction, or the rejection `InvalidOpcode` carrying the raw word (R74, R76). -/
inductive Decoded where
  | instr (i : Instr)
  | invalidOpcode (op : Word)
  deriving DecidableEq, Repr

/-! ## Fields (R71) -/

/-- The opcode nibble `f = op[15:12]`. -/
def opFamily (op : Word) : Nibble := op.extractLsb' 12 4

/-- The field `x = op[11:8]`. -/
def opX (op : Word) : Nibble := op.extractLsb' 8 4

/-- The field `y = op[7:4]`. -/
def opY (op : Word) : Nibble := op.extractLsb' 4 4

/-- The field `n = op[3:0]`. -/
def opN (op : Word) : Nibble := op.extractLsb' 0 4

/-- The field `kk = op[7:0]`. -/
def opKk (op : Word) : Byte := op.extractLsb' 0 8

/-- The field `nnn = op[11:0]`. -/
def opNnn (op : Word) : Addr := op.extractLsb' 0 12

/-! ## Decoding (R74) -/

/-- Family 0, matched on the whole word (R74, R77). -/
def decodeFamily0 (op : Word) : Decoded :=
  if op = 0x00E0#16 then .instr .cls
  else if op = 0x0000#16 then .instr .cls0
  else if op = 0x00EE#16 then .instr .ret
  else .invalidOpcode op

/-- Family 8, matched on `n` (R74, R75 rows 11 to 19). -/
def decodeFamily8 (op : Word) : Decoded :=
  if opN op = 0x0#4 then .instr (.ldReg (opX op) (opY op))
  else if opN op = 0x1#4 then .instr (.orReg (opX op) (opY op))
  else if opN op = 0x2#4 then .instr (.andReg (opX op) (opY op))
  else if opN op = 0x3#4 then .instr (.xorReg (opX op) (opY op))
  else if opN op = 0x4#4 then .instr (.addReg (opX op) (opY op))
  else if opN op = 0x5#4 then .instr (.subReg (opX op) (opY op))
  else if opN op = 0x6#4 then .instr (.shr (opX op) (opY op))
  else if opN op = 0x7#4 then .instr (.subn (opX op) (opY op))
  else if opN op = 0xE#4 then .instr (.shl (opX op) (opY op))
  else .invalidOpcode op

/-- Family E, matched on `kk` (R74, R75 rows 25 and 26). -/
def decodeFamilyE (op : Word) : Decoded :=
  if opKk op = 0x9E#8 then .instr (.skp (opX op))
  else if opKk op = 0xA1#8 then .instr (.sknp (opX op))
  else .invalidOpcode op

/-- Family F, matched on `kk` (R74, R75 rows 27 to 35). -/
def decodeFamilyF (op : Word) : Decoded :=
  if opKk op = 0x07#8 then .instr (.ldVxDt (opX op))
  else if opKk op = 0x0A#8 then .instr (.ldVxK (opX op))
  else if opKk op = 0x15#8 then .instr (.ldDtVx (opX op))
  else if opKk op = 0x18#8 then .instr (.ldStVx (opX op))
  else if opKk op = 0x1E#8 then .instr (.addI (opX op))
  else if opKk op = 0x29#8 then .instr (.ldF (opX op))
  else if opKk op = 0x33#8 then .instr (.ldB (opX op))
  else if opKk op = 0x55#8 then .instr (.stRegs (opX op))
  else if opKk op = 0x65#8 then .instr (.ldRegs (opX op))
  else .invalidOpcode op

/-- The decode procedure of R74, a pure function of the 16-bit word, total. -/
def decode (op : Word) : Decoded :=
  if opFamily op = 0x0#4 then decodeFamily0 op
  else if opFamily op = 0x1#4 then .instr (.jp (opNnn op))
  else if opFamily op = 0x2#4 then .instr (.call (opNnn op))
  else if opFamily op = 0x3#4 then .instr (.seImm (opX op) (opKk op))
  else if opFamily op = 0x4#4 then .instr (.sneImm (opX op) (opKk op))
  else if opFamily op = 0x5#4 then
    if opN op = 0x0#4 then .instr (.seReg (opX op) (opY op)) else .invalidOpcode op
  else if opFamily op = 0x6#4 then .instr (.ldImm (opX op) (opKk op))
  else if opFamily op = 0x7#4 then .instr (.addImm (opX op) (opKk op))
  else if opFamily op = 0x8#4 then decodeFamily8 op
  else if opFamily op = 0x9#4 then
    if opN op = 0x0#4 then .instr (.sneReg (opX op) (opY op)) else .invalidOpcode op
  else if opFamily op = 0xA#4 then .instr (.ldI (opNnn op))
  else if opFamily op = 0xB#4 then .instr (.jpV0 (opNnn op))
  else if opFamily op = 0xC#4 then .instr (.rnd (opX op) (opKk op))
  else if opFamily op = 0xD#4 then .instr (.drw (opX op) (opY op) (opN op))
  else if opFamily op = 0xE#4 then decodeFamilyE op
  else decodeFamilyF op

/-- The instruction word from its two bytes in memory, the byte at the lower address in bits 15 to 8 (R54). -/
def wordOfBytes (first second : Byte) : Word := first ++ second

/-- The byte of a word at the lower address (R54). -/
def highByte (op : Word) : Byte := op.extractLsb' 8 8

/-- The byte of a word at the higher address (R54). -/
def lowByte (op : Word) : Byte := op.extractLsb' 0 8

/-- The word whose low `nbits` bits are those of `w` and whose other bits are 0. -/
def tableWord (nbits w : Nat) : Word := BitVec.ofNat 16 (w % 2 ^ nbits)

/-- What the decoder reads from a word numbered as spec/opcode_table.json numbers it (bit 0 the least significant bit of
the one 16-bit word), laid out as two bytes in memory order and put together again as the fetch does. -/
def decodeTableWord (nbits w : Nat) : Option Instr :=
  match decode (wordOfBytes (highByte (tableWord nbits w)) (lowByte (tableWord nbits w))) with
  | .instr i => some i
  | .invalidOpcode _ => none

/-! ## Encoding (R72, R75) -/

/-- The word of an instruction: its fixed bits and its fields, high bits first (R72, R75). -/
def encode : Instr → Word
  | .cls => 0x00E0#16
  | .cls0 => 0x0000#16
  | .ret => 0x00EE#16
  | .jp nnn => 0x1#4 ++ nnn
  | .call nnn => 0x2#4 ++ nnn
  | .seImm x kk => 0x3#4 ++ x ++ kk
  | .sneImm x kk => 0x4#4 ++ x ++ kk
  | .seReg x y => 0x5#4 ++ x ++ y ++ 0x0#4
  | .ldImm x kk => 0x6#4 ++ x ++ kk
  | .addImm x kk => 0x7#4 ++ x ++ kk
  | .ldReg x y => 0x8#4 ++ x ++ y ++ 0x0#4
  | .orReg x y => 0x8#4 ++ x ++ y ++ 0x1#4
  | .andReg x y => 0x8#4 ++ x ++ y ++ 0x2#4
  | .xorReg x y => 0x8#4 ++ x ++ y ++ 0x3#4
  | .addReg x y => 0x8#4 ++ x ++ y ++ 0x4#4
  | .subReg x y => 0x8#4 ++ x ++ y ++ 0x5#4
  | .shr x y => 0x8#4 ++ x ++ y ++ 0x6#4
  | .subn x y => 0x8#4 ++ x ++ y ++ 0x7#4
  | .shl x y => 0x8#4 ++ x ++ y ++ 0xE#4
  | .sneReg x y => 0x9#4 ++ x ++ y ++ 0x0#4
  | .ldI nnn => 0xA#4 ++ nnn
  | .jpV0 nnn => 0xB#4 ++ nnn
  | .rnd x kk => 0xC#4 ++ x ++ kk
  | .drw x y n => 0xD#4 ++ x ++ y ++ n
  | .skp x => 0xE#4 ++ x ++ 0x9E#8
  | .sknp x => 0xE#4 ++ x ++ 0xA1#8
  | .ldVxDt x => 0xF#4 ++ x ++ 0x07#8
  | .ldVxK x => 0xF#4 ++ x ++ 0x0A#8
  | .ldDtVx x => 0xF#4 ++ x ++ 0x15#8
  | .ldStVx x => 0xF#4 ++ x ++ 0x18#8
  | .addI x => 0xF#4 ++ x ++ 0x1E#8
  | .ldF x => 0xF#4 ++ x ++ 0x29#8
  | .ldB x => 0xF#4 ++ x ++ 0x33#8
  | .stRegs x => 0xF#4 ++ x ++ 0x55#8
  | .ldRegs x => 0xF#4 ++ x ++ 0x65#8

/-! ## The opcode map as a table (R75)

The table is a second, independent reading of the encoding: `decode` follows R74's procedure and does not use it. -/

/-- One row of the opcode map: a word is this row's instruction if `word && mask = match` (R74, R75). -/
structure OpcodeRow where
  mnemonic : String
  pattern : Word
  mask : Word
  deriving DecidableEq, Repr

/-- Rows of formats Z and A, and of the immediate format XK (R75). -/
def rowsZAXK : List OpcodeRow :=
  [⟨"CLS", 0x00E0, 0xFFFF⟩, ⟨"CLS0", 0x0000, 0xFFFF⟩, ⟨"RET", 0x00EE, 0xFFFF⟩,
   ⟨"JP_nnn", 0x1000, 0xF000⟩, ⟨"CALL_nnn", 0x2000, 0xF000⟩,
   ⟨"SE_Vx__kk", 0x3000, 0xF000⟩, ⟨"SNE_Vx__kk", 0x4000, 0xF000⟩,
   ⟨"LD_Vx__kk", 0x6000, 0xF000⟩, ⟨"ADD_Vx__kk", 0x7000, 0xF000⟩,
   ⟨"LD_I__nnn", 0xA000, 0xF000⟩, ⟨"JP_V0__nnn", 0xB000, 0xF000⟩, ⟨"RND_Vx__kk", 0xC000, 0xF000⟩]

/-- Rows of the two-register formats XY and XYN (R75). -/
def rowsXY : List OpcodeRow :=
  [⟨"SE_Vx__Vy", 0x5000, 0xF00F⟩, ⟨"LD_Vx__Vy", 0x8000, 0xF00F⟩, ⟨"OR_Vx__Vy", 0x8001, 0xF00F⟩,
   ⟨"AND_Vx__Vy", 0x8002, 0xF00F⟩, ⟨"XOR_Vx__Vy", 0x8003, 0xF00F⟩, ⟨"ADD_Vx__Vy", 0x8004, 0xF00F⟩,
   ⟨"SUB_Vx__Vy", 0x8005, 0xF00F⟩, ⟨"SHR_Vx", 0x8006, 0xF00F⟩, ⟨"SUBN_Vx__Vy", 0x8007, 0xF00F⟩,
   ⟨"SHL_Vx", 0x800E, 0xF00F⟩, ⟨"SNE_Vx__Vy", 0x9000, 0xF00F⟩, ⟨"DRW_Vx__Vy__n", 0xD000, 0xF000⟩]

/-- Rows of the one-register format X (R75). -/
def rowsX : List OpcodeRow :=
  [⟨"SKP_Vx", 0xE09E, 0xF0FF⟩, ⟨"SKNP_Vx", 0xE0A1, 0xF0FF⟩, ⟨"LD_Vx__DT", 0xF007, 0xF0FF⟩,
   ⟨"LD_Vx__K", 0xF00A, 0xF0FF⟩, ⟨"LD_DT__Vx", 0xF015, 0xF0FF⟩, ⟨"LD_ST__Vx", 0xF018, 0xF0FF⟩,
   ⟨"ADD_I__Vx", 0xF01E, 0xF0FF⟩, ⟨"LD_F__Vx", 0xF029, 0xF0FF⟩, ⟨"LD_B__Vx", 0xF033, 0xF0FF⟩,
   ⟨"LD__I___Vx", 0xF055, 0xF0FF⟩, ⟨"LD_Vx___I", 0xF065, 0xF0FF⟩]

/-- The 35 rows of R75 (spec/opcode_table.json's match and mask). -/
def opcodeRows : List OpcodeRow := rowsZAXK ++ rowsXY ++ rowsX

/-- A word matches a row (R74: "`w & mask = match`"). -/
def OpcodeRow.matchesWord (row : OpcodeRow) (op : Word) : Bool := op &&& row.mask == row.pattern

/-- The row's mnemonic of an instruction, as spec/opcode_table.json spells it. -/
def mnemonicOf : Instr → String
  | .cls => "CLS"
  | .cls0 => "CLS0"
  | .ret => "RET"
  | .jp _ => "JP_nnn"
  | .call _ => "CALL_nnn"
  | .seImm _ _ => "SE_Vx__kk"
  | .sneImm _ _ => "SNE_Vx__kk"
  | .seReg _ _ => "SE_Vx__Vy"
  | .ldImm _ _ => "LD_Vx__kk"
  | .addImm _ _ => "ADD_Vx__kk"
  | .ldReg _ _ => "LD_Vx__Vy"
  | .orReg _ _ => "OR_Vx__Vy"
  | .andReg _ _ => "AND_Vx__Vy"
  | .xorReg _ _ => "XOR_Vx__Vy"
  | .addReg _ _ => "ADD_Vx__Vy"
  | .subReg _ _ => "SUB_Vx__Vy"
  | .shr _ _ => "SHR_Vx"
  | .subn _ _ => "SUBN_Vx__Vy"
  | .shl _ _ => "SHL_Vx"
  | .sneReg _ _ => "SNE_Vx__Vy"
  | .ldI _ => "LD_I__nnn"
  | .jpV0 _ => "JP_V0__nnn"
  | .rnd _ _ => "RND_Vx__kk"
  | .drw _ _ _ => "DRW_Vx__Vy__n"
  | .skp _ => "SKP_Vx"
  | .sknp _ => "SKNP_Vx"
  | .ldVxDt _ => "LD_Vx__DT"
  | .ldVxK _ => "LD_Vx__K"
  | .ldDtVx _ => "LD_DT__Vx"
  | .ldStVx _ => "LD_ST__Vx"
  | .addI _ => "ADD_I__Vx"
  | .ldF _ => "LD_F__Vx"
  | .ldB _ => "LD_B__Vx"
  | .stRegs _ => "LD__I___Vx"
  | .ldRegs _ => "LD_Vx___I"

end Sys2Proof
end

