-- ==== Sys2Proof/Machine/Font.lean ====
section
/-! DEFINITION. The constant `FONT` that LOAD copies to addresses 0 to 79 (20_memory.md R64). The shape is the source's; the
byte values are general knowledge of the spec's own (93 G3, assumption log 11). -/

namespace Sys2Proof.Machine

/-- Glyphs 0 to 7, five bytes each, top row first (R64). -/
def glyphs0to7 : List Byte :=
  [0xF0, 0x90, 0x90, 0x90, 0xF0] ++
  [0x20, 0x60, 0x20, 0x20, 0x70] ++
  [0xF0, 0x10, 0xF0, 0x80, 0xF0] ++
  [0xF0, 0x10, 0xF0, 0x10, 0xF0] ++
  [0x90, 0x90, 0xF0, 0x10, 0x10] ++
  [0xF0, 0x80, 0xF0, 0x10, 0xF0] ++
  [0xF0, 0x80, 0xF0, 0x90, 0xF0] ++
  [0xF0, 0x10, 0x20, 0x40, 0x40]

/-- Glyphs 8 to F (R64). -/
def glyphs8toF : List Byte :=
  [0xF0, 0x90, 0xF0, 0x90, 0xF0] ++
  [0xF0, 0x90, 0xF0, 0x10, 0xF0] ++
  [0xF0, 0x90, 0xF0, 0x90, 0x90] ++
  [0xE0, 0x90, 0xE0, 0x90, 0xE0] ++
  [0xF0, 0x80, 0x80, 0x80, 0xF0] ++
  [0xE0, 0x90, 0x90, 0x90, 0xE0] ++
  [0xF0, 0x80, 0xF0, 0x80, 0xF0] ++
  [0xF0, 0x80, 0xF0, 0x80, 0x80]

/-- `FONT`, 80 bytes: glyph `d` at `5 * d` to `5 * d + 4` (R64). -/
def fontTable : List Byte := glyphs0to7 ++ glyphs8toF

end Sys2Proof.Machine
end

