-- ==== Sys2Proof/Machine/State.lean ====
section
/-! DEFINITION. The machine's state as plain data (10_state.md R20 to R37): the block's own, with exactly R20's fields, and beside
it one counter of the model; its fault latch, the reasons a step can stop, and the state after reset. -/

namespace Sys2Proof.Machine

/-- `MEM` as the cells that differ from what LOAD of the empty program left there, addresses strictly rising
(20_memory.md R50; the canonical form is `Memory.wf` in Machine/Ops.lean, assumption log 10). -/
abbrev Memory := List Host.Cell

/-- One row of the display: 64 pixels, column 0 first, lit = true (10_state.md R29). -/
abbrev PixelRow := Vector Bool 64

/-- `FB`: 32 rows of 64 pixels, row 0 first; row-major, so pixel `(x, y)` is the flat cell `y * 64 + x` (R29, R153;
assumption log 22). -/
abbrev Framebuffer := Vector PixelRow 32

/-- The five run-time faults that set the latch (60_exceptions.md R190; `InvalidProgram`, the sixth, sets nothing). -/
inductive FaultKind where
  | invalidOpcode
  | addressOutOfRange
  | stackOverflow
  | stackUnderflow
  | keyIndexOutOfRange
  deriving DecidableEq, Repr

/-- What the latch `FAULT` records: the kind and the 16-bit info, which is the instruction word, or the fetch address for a
fetch fault (R32, R190). -/
structure FaultRecord where
  kind : FaultKind
  info : Word
  deriving DecidableEq, Repr

/-- The whole state of the block: exactly the fields of R20's table ("Nothing else is state; a model's state type has exactly
these fields"). -/
structure BlockState where
  /-- `MEM`, 4096 bytes (R50). -/
  mem : Memory
  /-- `V[0]` to `V[15]`; `V[15]` is VF (R21, R22). -/
  v : Vector Byte 16
  /-- `I`, the index register (R23). -/
  i : Word
  /-- `PC` (R24). -/
  pc : Word
  /-- `STACK[0]` to `STACK[15]` (R25). -/
  stack : Vector Word 16
  /-- `SP`, the number of return addresses on the stack, 0 to 16 in 5 bits (R26). -/
  sp : BitVec 5
  /-- `DT`, the delay timer (R27). -/
  dt : Byte
  /-- `ST`, the sound timer (R28). -/
  st : Byte
  /-- `FB`, the framebuffer (R29). -/
  fb : Framebuffer
  /-- `KEY[0]` to `KEY[15]`, pressed = true (R30). -/
  key : Vector Bool 16
  /-- `WAITING`, the wait-for-key flag (R31). -/
  waiting : Bool
  /-- `WAIT_REG`, the register the awaited key goes to (R31). -/
  waitReg : Nibble
  /-- `FAULT`, the fault latch (R32). -/
  fault : Option FaultRecord
  /-- `SPEED`, instructions per tick (R33). -/
  speed : Nat
  /-- `HAS_BASELINE` (R34). -/
  hasBaseline : Bool
  /-- `LAST_TIME`, the time of the previous ADVANCE (R34). -/
  lastTime : Time
  deriving DecidableEq, Repr

/-- What the model steps: the block's state and, beside it, the model's place in the sequence of inputs from outside (R35: the
random byte is an input, not state). -/
structure State extends BlockState where
  /-- The model's own, no state of the block: how many free values have been consumed (assumption log 4). -/
  draws : Nat
  deriving DecidableEq, Repr

/-- Why a step can stop. The spec's own faults are no stop: they set the latch `FAULT` and give a next state (R198). -/
inductive Fault where
  /-- Raised by `ret` and `call` when `SP` holds 17 to 31, values R26 says `SP` never takes (no `STACK` entry exists there).
  Safe: the model stops; no run from reset gets there (assumption log 8). -/
  | stackPointerOutOfRange
  deriving DecidableEq, Repr

/-- Why the model gives no meaning. -/
inductive Refusal where
  /-- Raised by an arm of `exec` for an instruction that has no meaning yet; no arm does now. Safe. -/
  | notModelled (mnemonic : String)
  /-- Raised by the host operation ADVANCE when its time is earlier than the previous one, which R184 does not let the host
  do; no instruction raises it. Safe: the model stops (assumption log 6). -/
  | timeRunsBackwards
  deriving DecidableEq, Repr

/-- The state after LOAD of the empty program on a block whose speed was never set (R37, R171, R221). `lastTime` and
`draws` have no value in the spec (assumption log 3, 4). -/
def State.reset : State where
  mem := []
  v := Vector.replicate 16 0
  i := 0
  pc := 0x200
  stack := Vector.replicate 16 0
  sp := 0
  dt := 0
  st := 0
  fb := Vector.replicate 32 (Vector.replicate 64 false)
  key := Vector.replicate 16 false
  waiting := false
  waitReg := 0
  fault := none
  speed := Config.speedDefault
  hasBaseline := false
  lastTime := 0
  draws := 0

end Sys2Proof.Machine
end

