-- ==== Sys2Proof/Machine/Ops.lean ====
section
/-! DEFINITION. The named operations over the state: memory (20_memory.md), registers and stack (10_state.md), fault entry
(60_exceptions.md R198), fetch (40_step_cycle.md R91), framebuffer and sprite drawing (44_graphics.md), keys. -/

namespace Sys2Proof.Machine

/-! ## Memory (R50 to R53) -/

/-- What an address reads as that nothing has written since LOAD of the empty program: the font below 80, 0 elsewhere
(R37, R51). -/
def unlistedByte (a : Nat) : Byte := fontTable.getD a 0

/-- `MEM[a]` with no check (R6). -/
def Memory.read : Memory → Nat → Byte
  | [], a => unlistedByte a
  | c :: rest, a => if c.1 = a then c.2 else Memory.read rest a

/-- The cells without those at address `a`. -/
def Memory.erase : Memory → Nat → Memory
  | [], _ => []
  | c :: rest, a => if c.1 = a then Memory.erase rest a else c :: Memory.erase rest a

/-- A cell put before the first cell with a higher address. -/
def Memory.insertCell (a : Nat) (b : Byte) : Memory → Memory
  | [] => [(a, b)]
  | c :: rest => if c.1 < a then c :: Memory.insertCell a b rest else (a, b) :: c :: rest

/-- `MEM[a] <- b` with no check. A byte equal to what the address reads as unwritten is not listed, so that equal memories
are equal data. -/
def Memory.write (m : Memory) (a : Nat) (b : Byte) : Memory :=
  if b = unlistedByte a then m.erase a else (m.erase a).insertCell a b

/-- `MEM[a + k] <- bytes[k]`, in ascending order (R52). -/
def Memory.writeBytes (m : Memory) (a : Nat) : List Byte → Memory
  | [] => m
  | b :: rest => (m.write a b).writeBytes (a + 1) rest

/-- The canonical form: addresses strictly rising, all below 4096, no cell equal to what its address reads as unlisted. -/
def Memory.wf : Memory → Bool
  | [] => true
  | c :: rest =>
    rest.all (fun d => c.1 < d.1) && decide (c.1 < Config.memSize) && decide (c.2 ≠ unlistedByte c.1) && Memory.wf rest

/-- The range check of R52: an access of `n` bytes at `a` leaves 0 to 4095. Natural numbers, no wrap; `n = 0` never does. -/
def outOfRange (a : Word) (n : Nat) : Bool := decide (n > 0 ∧ a.toNat + n - 1 > 4095)

/-- `MemRead(a, n)` (R52): the bytes, lowest address first, or `none` where R52 raises `AddressOutOfRange`. -/
def State.memRead (s : State) (a : Word) (n : Nat) : Option (List Byte) :=
  if outOfRange a n then none else some ((List.range n).map fun k => s.mem.read (a.toNat + k))

/-- `MemWrite(a, n, bytes)` with `n` the length of `bytes` (R52, R53): the whole range is checked before the first byte;
`none` where R52 raises `AddressOutOfRange`. -/
def State.memWrite (s : State) (a : Word) (bytes : List Byte) : Option State :=
  if outOfRange a bytes.length then none else some { s with mem := s.mem.writeBytes a.toNat bytes }

/-! ## General registers (R21, R22, R133) -/

/-- The index of VF (R22). -/
def vf : Nibble := 15

/-- `V[x]` (R6, R21). -/
def State.readV (s : State) (x : Nibble) : Byte := s.v[x.toNat]

/-- `V[x] <- b` (R6, R21). -/
def State.writeV (s : State) (x : Nibble) (b : Byte) : State := { s with v := s.v.set x.toNat b }

/-- The write order of the flag-writing instructions: VF first, `V[x]` second, so the result stays when `x = 15` (R133). -/
def State.writeFlagThenResult (s : State) (x : Nibble) (flag result : Byte) : State :=
  (s.writeV vf flag).writeV x result

/-- `V[0]` to `V[x]`, in order (R144). -/
def State.firstRegs (s : State) (x : Nibble) : List Byte := s.v.toList.take (x.toNat + 1)

/-- `V[k] <- bytes[k]` for every `k` below the number of bytes, the other registers kept (R145). -/
def State.loadFirstRegs (s : State) (bytes : List Byte) : State :=
  { s with v := Vector.ofFn fun k => bytes.getD k.val s.v[k] }

/-! ## Index register and program counter (R23, R24) -/

/-- `I <- a` (R23). -/
def State.writeI (s : State) (a : Word) : State := { s with i := a }

/-- `PC <- a` (R24). -/
def State.writePc (s : State) (a : Word) : State := { s with pc := a }

/-- `PC <- (PC + 2) mod 65536`: the advance of R92 and the skip of R108. -/
def State.advancePc (s : State) : State := s.writePc (s.pc + 2)

/-- A skip: 2 more when the condition holds (R108). -/
def State.skipIf (s : State) (cond : Bool) : State := if cond then s.advancePc else s

/-! ## Faults (R7, R198)

The one operation that takes a fault. Nothing is saved anywhere and control goes nowhere (R198). There is no return from it
(R199): only LOAD (Machine/HostOps.lean) clears the latch. -/

/-- `raise kind(info)`: `FAULT <- (kind, info)` and nothing else; `PC` stays where the step left it (R7, R198). The report
of R181 is an output of ADVANCE (Machine/HostOps.lean). -/
def State.raise (s : State) (kind : FaultKind) (info : Word) : State := { s with fault := some ⟨kind, info⟩ }

/-- The codes 1 to 5 of the run-time faults (R190). -/
def FaultKind.code : FaultKind → Nat
  | .invalidOpcode => 1
  | .addressOutOfRange => 2
  | .stackOverflow => 3
  | .stackUnderflow => 4
  | .keyIndexOutOfRange => 5

/-- An access by `I` that R52 refuses ends the instruction with `AddressOutOfRange(op)`; otherwise it goes on with what the
access gave (R53, R192). -/
def orAddressFault {α : Type} (access : Option α) (op : Word) (s : State) (goOn : α → State) : State :=
  match access with
  | none => s.raise .addressOutOfRange op
  | some r => goOn r

/-! ## Fetch and the step's gates (R90, R91) -/

/-- A slot executes only if `FAULT = none` and `WAITING = 0` (R90). -/
def State.slotOpen (s : State) : Bool := s.fault.isNone && !s.waiting

/-- The fetch: the two bytes at `PC`, the lower address in the high byte; `none` where `PC + 1 > 4095` (R54, R91). -/
def State.fetch (s : State) : Option Word :=
  match s.memRead s.pc 2 with
  | some [first, second] => some (wordOfBytes first second)
  | _ => none

/-! ## Call stack (R25, R26) -/

/-- `STACK[SP] <- PC; SP <- SP + 1`, for `SP` below 16 (R102); `none` for the other values. -/
def State.pushPc (s : State) : Option State :=
  if h : s.sp.toNat < 16 then some { s with stack := s.stack.set s.sp.toNat s.pc, sp := s.sp + 1 } else none

/-- `SP <- SP - 1; PC <- STACK[SP]`, for `SP` from 1 to 16 (R100); `none` for the other values. The popped entry keeps
its value (R25). -/
def State.popPc (s : State) : Option State :=
  if h : 1 ≤ s.sp.toNat ∧ s.sp.toNat ≤ 16 then
    some { s with sp := s.sp - 1, pc := s.stack[s.sp.toNat - 1]'(by omega) }
  else none

/-! ## Framebuffer (R29, R150 to R153) -/

/-- `FB[x, y]` (R29, R153). -/
def Framebuffer.pixel (fb : Framebuffer) (x : BitVec 6) (y : BitVec 5) : Bool := fb[y.toNat][x.toNat]

/-- `FB[x, y] <- FB[x, y] ^ 1` (R152). -/
def Framebuffer.toggle (fb : Framebuffer) (x : BitVec 6) (y : BitVec 5) : Framebuffer :=
  fb.set y.toNat (fb[y.toNat].set x.toNat (!fb[y.toNat][x.toNat]))

/-- Every pixel unlit (R150). -/
def blankScreen : Framebuffer := Vector.replicate 32 (Vector.replicate 64 false)

/-- `FB[x, y] <- 0` for every pixel (R150). -/
def State.clearScreen (s : State) : State := { s with fb := blankScreen }

/-- The column of a sprite bit, `(vx + c) mod W` with W = 64 (R152). -/
def wrapX (n : Nat) : BitVec 6 := BitVec.ofNat 6 n

/-- The row of a sprite bit, `(vy + r) mod H` with H = 32 (R152). -/
def wrapY (n : Nat) : BitVec 5 := BitVec.ofNat 5 n

/-- `rows[r][7 - c]`: the sprite's bit in row `r`, column `c`, bit 7 leftmost (R152). -/
def spriteBit (rows : List Byte) (r c : Nat) : Bool := (rows.getD r 0).getLsbD (7 - c)

/-- One sprite bit that is 1: a lit target sets the collision, and the target is toggled (R152). -/
def togglePixel (acc : Framebuffer × Bool) (x : BitVec 6) (y : BitVec 5) : Framebuffer × Bool :=
  (acc.1.toggle x y, acc.2 || acc.1.pixel x y)

/-- The inner loop of R152: the eight bits of sprite row `r`, leftmost first. -/
def drawSpriteRow (rows : List Byte) (vx vy : Nat) (acc : Framebuffer × Bool) (r : Nat) : Framebuffer × Bool :=
  (List.range 8).foldl
    (fun acc c => if spriteBit rows r c then togglePixel acc (wrapX (vx + c)) (wrapY (vy + r)) else acc) acc

/-- The loops of R152 over a sprite's rows: the framebuffer after, and whether a lit pixel was turned unlit. -/
def drawSprite (fb : Framebuffer) (rows : List Byte) (vx vy : Nat) : Framebuffer × Bool :=
  (List.range rows.length).foldl (drawSpriteRow rows vx vy) (fb, false)

/-! ## Keys and free values (R30, R160, R180) -/

/-- `KEY[k]` (R30). -/
def State.keyDown (s : State) (k : Nibble) : Bool := s.key[k.toNat]

/-- `KEY[k]` for a byte `k`, or `none` where `k > 15` (R160, R195). -/
def State.keyAt (s : State) (k : Byte) : Option Bool :=
  if k.toNat > 15 then none else some (s.keyDown (BitVec.ofNat 4 k.toNat))

/-- `RAND()`: the next free byte, and the state that has consumed it (R180). The block's own state is as it was: only the model's
counter, which is no state of the block (R35), advances (assumption log 4). -/
def State.rand (s : State) : Byte × State := (Config.randomByte s.draws, { s with draws := s.draws + 1 })

end Sys2Proof.Machine
end

