-- ==== Sys2Proof/Machine/Operands.lean ====
section
/-! DEFINITION. The operand forms (30_encoding.md R73) and the constant products and quotients of the instructions
(42_load_alu.md R132). -/

namespace Sys2Proof.Machine

/-- `zext_16(nnn)`: an address field in `PC` or `I`, never scaled (R73). -/
def zextAddr (nnn : Addr) : Word := nnn.setWidth 16

/-- `zext_16(b)`: a register value added to `PC` or `I` (R107, R141). -/
def zextByte (b : Byte) : Word := b.setWidth 16

/-- `zext_16(b) * 5`: the address of the glyph of a digit (R142). The whole byte is multiplied; 1275 is the most. -/
def glyphAddress (b : Byte) : Word := BitVec.ofNat 16 (b.toNat * Config.glyphBytes)

/-- The hundreds, tens and ones of a byte, in that order (R143). -/
def bcdDigits (b : Byte) : List Byte :=
  [BitVec.ofNat 8 (b.toNat / 100), BitVec.ofNat 8 (b.toNat / 10 % 10), BitVec.ofNat 8 (b.toNat % 10)]

end Sys2Proof.Machine
end

