-- ==== Sys2Proof/Machine/ControlFlow.lean ====
section
/-! DEFINITION. Control transfer (41_control_flow.md R100 to R109). `PC` on entry is the instruction's address plus 2 (R92).
A faulting instruction records its own word, which `encode` gives: none of these words has an unused bit (assumption log 9). -/

namespace Sys2Proof.Machine

open Host (Outcome)

/-- `00EE` RET (R100): `StackUnderflow` at `SP = 0`, else pop. `SP` above 16 does not exist (R26). -/
def execRet (s : State) : Outcome State Fault Refusal :=
  if s.sp = 0 then .next (s.raise .stackUnderflow (encode .ret))
  else match s.popPc with
    | some t => .next t
    | none => .fault .stackPointerOutOfRange

/-- `1nnn` JP nnn (R101). -/
def execJp (nnn : Addr) (s : State) : Outcome State Fault Refusal := .next (s.writePc (zextAddr nnn))

/-- `2nnn` CALL nnn (R102): `StackOverflow` at `SP = 16`, else push the already advanced `PC` and jump. `SP` above 16 does
not exist (R26). -/
def execCall (nnn : Addr) (s : State) : Outcome State Fault Refusal :=
  if s.sp = 16 then .next (s.raise .stackOverflow (encode (.call nnn)))
  else match s.pushPc with
    | some t => .next (t.writePc (zextAddr nnn))
    | none => .fault .stackPointerOutOfRange

/-- `3xkk` SE Vx, kk (R103). -/
def execSeImm (x : Nibble) (kk : Byte) (s : State) : Outcome State Fault Refusal :=
  .next (s.skipIf (s.readV x == kk))

/-- `4xkk` SNE Vx, kk (R104). -/
def execSneImm (x : Nibble) (kk : Byte) (s : State) : Outcome State Fault Refusal :=
  .next (s.skipIf (s.readV x != kk))

/-- `5xy0` SE Vx, Vy (R105). -/
def execSeReg (x y : Nibble) (s : State) : Outcome State Fault Refusal :=
  .next (s.skipIf (s.readV x == s.readV y))

/-- `9xy0` SNE Vx, Vy (R106). -/
def execSneReg (x y : Nibble) (s : State) : Outcome State Fault Refusal :=
  .next (s.skipIf (s.readV x != s.readV y))

/-- `Bnnn` JP V0, nnn (R107): the register is always V0, and the sum is not reduced modulo 4096. -/
def execJpV0 (nnn : Addr) (s : State) : Outcome State Fault Refusal :=
  .next (s.writePc (zextAddr nnn + zextByte (s.readV 0)))

end Sys2Proof.Machine
end

