-- ==== Sys2Proof/Machine/Graphics.lean ====
section
/-! DEFINITION. Clear screen and sprite draw (44_graphics.md R150 to R155). -/

namespace Sys2Proof.Machine

open Host (Outcome)

/-- `00E0` CLS (R150). -/
def execCls (s : State) : Outcome State Fault Refusal := .next s.clearScreen

/-- `0000` CLS0 (R151): exactly the effect of R150 (the spec's choice, assumption log 13). -/
def execCls0 (s : State) : Outcome State Fault Refusal := .next s.clearScreen

/-- The state after a draw: the new framebuffer, then VF, last (R152). -/
def State.afterDraw (s : State) (drawn : Framebuffer × Bool) : State :=
  { s with fb := drawn.1 }.writeV vf (collisionFlag drawn.2)

/-- `Dxyn` DRW Vx, Vy, n (R152): both coordinates sampled first, `n` rows read at `I`, VF written last; or
`AddressOutOfRange` and neither a pixel nor VF. -/
def execDrw (x y n : Nibble) (s : State) : Outcome State Fault Refusal :=
  .next (orAddressFault (s.memRead s.i n.toNat) (encode (.drw x y n)) s fun rows =>
    s.afterDraw (drawSprite s.fb rows (s.readV x).toNat (s.readV y).toNat))

end Sys2Proof.Machine
end

