-- ==== Sys2Proof/Machine/IndexMemory.lean ====
section
/-! DEFINITION. Index register operations, loads and stores (43_index_memory.md R140 to R146). No load or store changes `I`.
A faulting instruction records its own word, which `encode` gives (assumption log 9). -/

namespace Sys2Proof.Machine

open Host (Outcome)

/-- `Annn` LD I, nnn (R140). -/
def execLdI (nnn : Addr) (s : State) : Outcome State Fault Refusal := .next (s.writeI (zextAddr nnn))

/-- `Fx1E` ADD I, Vx (R141): modulo 65536, VF not written. -/
def execAddI (x : Nibble) (s : State) : Outcome State Fault Refusal :=
  .next (s.writeI (s.i + zextByte (s.readV x)))

/-- `Fx29` LD F, Vx (R142). -/
def execLdF (x : Nibble) (s : State) : Outcome State Fault Refusal :=
  .next (s.writeI (glyphAddress (s.readV x)))

/-- `Fx33` LD B, Vx (R143): three digit bytes at `I`, or `AddressOutOfRange` and no byte. -/
def execLdB (x : Nibble) (s : State) : Outcome State Fault Refusal :=
  .next (orAddressFault (s.memWrite s.i (bcdDigits (s.readV x))) (encode (.ldB x)) s fun t => t)

/-- `Fx55` LD [I], Vx (R144): `V[0]` to `V[x]` at `I`, or `AddressOutOfRange` and no byte. -/
def execStRegs (x : Nibble) (s : State) : Outcome State Fault Refusal :=
  .next (orAddressFault (s.memWrite s.i (s.firstRegs x)) (encode (.stRegs x)) s fun t => t)

/-- `Fx65` LD Vx, [I] (R145): `V[0]` to `V[x]` from `I`, or `AddressOutOfRange` and no register. -/
def execLdRegs (x : Nibble) (s : State) : Outcome State Fault Refusal :=
  .next (orAddressFault (s.memRead s.i (x.toNat + 1)) (encode (.ldRegs x)) s fun bytes => s.loadFirstRegs bytes)

end Sys2Proof.Machine
end

