-- ==== Sys2Proof/Machine/LoadAlu.lean ====
section
/-! DEFINITION. Register loads, arithmetic, logic, shifts, random (42_load_alu.md R120 to R133). None touches `PC` or memory
and none faults. -/

namespace Sys2Proof.Machine

open Host (Outcome)

/-- `6xkk` LD Vx, kk (R120). -/
def execLdImm (x : Nibble) (kk : Byte) (s : State) : Outcome State Fault Refusal := .next (s.writeV x kk)

/-- `7xkk` ADD Vx, kk (R121): modulo 256, VF not written. -/
def execAddImm (x : Nibble) (kk : Byte) (s : State) : Outcome State Fault Refusal :=
  .next (s.writeV x (s.readV x + kk))

/-- `8xy0` LD Vx, Vy (R122). -/
def execLdReg (x y : Nibble) (s : State) : Outcome State Fault Refusal := .next (s.writeV x (s.readV y))

/-- `8xy1` OR Vx, Vy (R123): VF not written. -/
def execOrReg (x y : Nibble) (s : State) : Outcome State Fault Refusal :=
  .next (s.writeV x (s.readV x ||| s.readV y))

/-- `8xy2` AND Vx, Vy (R124): VF not written. -/
def execAndReg (x y : Nibble) (s : State) : Outcome State Fault Refusal :=
  .next (s.writeV x (s.readV x &&& s.readV y))

/-- `8xy3` XOR Vx, Vy (R125): VF not written. -/
def execXorReg (x y : Nibble) (s : State) : Outcome State Fault Refusal :=
  .next (s.writeV x (s.readV x ^^^ s.readV y))

/-- `8xy4` ADD Vx, Vy (R126): VF is the carry out. -/
def execAddReg (x y : Nibble) (s : State) : Outcome State Fault Refusal :=
  .next (s.writeFlagThenResult x (carryFlag (s.readV x) (s.readV y)) (s.readV x + s.readV y))

/-- `8xy5` SUB Vx, Vy (R127): VF is NOT borrow, equality counts as no borrow. -/
def execSubReg (x y : Nibble) (s : State) : Outcome State Fault Refusal :=
  .next (s.writeFlagThenResult x (noBorrowFlag (s.readV x) (s.readV y)) (s.readV x - s.readV y))

/-- `8xy6` SHR Vx (R128): the operand is `V[x]`, `y` selects nothing. -/
def execShr (x _y : Nibble) (s : State) : Outcome State Fault Refusal :=
  .next (s.writeFlagThenResult x (shiftRightFlag (s.readV x)) (s.readV x >>> 1))

/-- `8xy7` SUBN Vx, Vy (R129): the reverse difference, the destination still `V[x]`. -/
def execSubn (x y : Nibble) (s : State) : Outcome State Fault Refusal :=
  .next (s.writeFlagThenResult x (noBorrowFlag (s.readV y) (s.readV x)) (s.readV y - s.readV x))

/-- `8xyE` SHL Vx (R130): the operand is `V[x]`, `y` selects nothing. -/
def execShl (x _y : Nibble) (s : State) : Outcome State Fault Refusal :=
  .next (s.writeFlagThenResult x (shiftLeftFlag (s.readV x)) (s.readV x <<< 1))

/-- `Cxkk` RND Vx, kk (R131): one byte from the random source, and the mask. -/
def execRnd (x : Nibble) (kk : Byte) (s : State) : Outcome State Fault Refusal :=
  .next (s.rand.2.writeV x (s.rand.1 &&& kk))

end Sys2Proof.Machine
end

