-- ==== Sys2Proof/Machine/TimersInput.lean ====
section
/-! DEFINITION. Timer and keypad instructions (45_timers_input.md R160 to R166). -/

namespace Sys2Proof.Machine

open Host (Outcome)

/-- A key skip: `KeyIndexOutOfRange(op)` when `V[x] > 15`, else skip if the key's level is `level` (R160, R161). -/
def State.skipIfKey (s : State) (x : Nibble) (level : Bool) (op : Word) : State :=
  match s.keyAt (s.readV x) with
  | none => s.raise .keyIndexOutOfRange op
  | some down => s.skipIf (down == level)

/-- `Ex9E` SKP Vx (R160). -/
def execSkp (x : Nibble) (s : State) : Outcome State Fault Refusal := .next (s.skipIfKey x true (encode (.skp x)))

/-- `ExA1` SKNP Vx (R161). -/
def execSknp (x : Nibble) (s : State) : Outcome State Fault Refusal := .next (s.skipIfKey x false (encode (.sknp x)))

/-- `Fx07` LD Vx, DT (R162). -/
def execLdVxDt (x : Nibble) (s : State) : Outcome State Fault Refusal := .next (s.writeV x s.dt)

/-- `Fx0A` LD Vx, K (R163): it completes at once; the PRESS that ends the wait writes `V[x]` (R172). -/
def execLdVxK (x : Nibble) (s : State) : Outcome State Fault Refusal :=
  .next { s with waiting := true, waitReg := x }

/-- `Fx15` LD DT, Vx (R164). -/
def execLdDtVx (x : Nibble) (s : State) : Outcome State Fault Refusal := .next { s with dt := s.readV x }

/-- `Fx18` LD ST, Vx (R165): no signal from the instruction itself. -/
def execLdStVx (x : Nibble) (s : State) : Outcome State Fault Refusal := .next { s with st := s.readV x }

end Sys2Proof.Machine
end

