-- ==== Sys2Proof/Machine/Slot.lean ====
section
/-! DEFINITION. What `withFetchWord` of Machine/Step.lean needs: a word placed where the next slot fetches. -/

namespace Sys2Proof.Machine

/-- The address the next open slot fetches from: `PC`, or the entry point where `PC` cannot be fetched from (R91). -/
def State.fetchAddress (s : State) : Word := if s.pc.toNat ≤ 4094 then s.pc else 0x200

/-- `s` with the word stored big-endian at the fetch address (R54), `PC` there, and both gates of R90 open, so that the very
next slot runs it. At a state such as reset only memory changes. -/
def State.placeWord (s : State) (op : Word) : State :=
  { s with
    mem := s.mem.writeBytes s.fetchAddress.toNat [highByte op, lowByte op]
    pc := s.fetchAddress
    waiting := false
    fault := none }

end Sys2Proof.Machine
end

