-- ==== Sys2Proof/Machine/Step.lean ====
section
/-! DEFINITION. One step: one instruction slot of ADVANCE (40_step_cycle.md R90 to R94), and where the host places a word for
the next slot. -/

namespace Sys2Proof.Machine

/-- One instruction slot (R90 to R94): skipped, with no change, while `FAULT` is set or `WAITING` is 1; a fetch fault
records `PC` and does not advance it; otherwise `PC` advances by 2, the word is decoded and its rule performed. -/
def step (s : State) : Host.Outcome State Fault Refusal :=
  if s.slotOpen then
    match s.fetch with
    | none => .next (s.raise .addressOutOfRange s.pc)
    | some op =>
      match decode op with
      | .invalidOpcode bad => .next (s.advancePc.raise .invalidOpcode bad)
      | .instr i => exec i s.advancePc
  else .next s

/-- `s` with the word numbered `nbits`, `w` placed where `step` fetches next, and the slot open (assumption log 21). -/
def State.withFetchWord (s : State) (nbits w : Nat) : State := s.placeWord (tableWord nbits w)

end Sys2Proof.Machine
end

