-- ==== Sys2Proof/Machine/HostOps.lean ====
section
/-! DEFINITION. The host operations and the block's outputs (46_host_operations.md R170 to R184): LOAD, PRESS, RELEASE,
ADVANCE (the frame scheduler), SET_SPEED, IS_LIT. They are no instructions and stand outside `step`; each is atomic and
none overlaps another (00_scope.md R12, assumption log 18). -/

namespace Sys2Proof.Machine

open Host (Outcome)

/-- What the block emits or replies (R170). -/
inductive Output where
  /-- `SOUND_START` (R176). -/
  | soundStart
  /-- `SOUND_STOP` (R176). -/
  | soundStop
  /-- `FAULT_REPORT(kind, info)` (R181). -/
  | faultReport (kind : FaultKind) (info : Word)
  /-- `LOAD_ERROR(InvalidProgram)`, the reply to a LOAD that does not fit (R171, R196). -/
  | loadError
  /-- The bit `IS_LIT` returns (R179). -/
  | lit (b : Bool)
  deriving DecidableEq, Repr

/-- The code 6 of `InvalidProgram` (60_exceptions.md R190). -/
def invalidProgramCode : Nat := 6

/-- The host's operations (R170). -/
inductive HostOp where
  /-- `LOAD(prog)` (R171). -/
  | load (prog : List Byte)
  /-- `PRESS(k)` (R172). -/
  | press (k : Nibble)
  /-- `RELEASE(k)` (R173). -/
  | release (k : Nibble)
  /-- `ADVANCE(now)` (R174 to R177). -/
  | advance (now : Time)
  /-- `SET_SPEED(s)` (R178). -/
  | setSpeed (speed : Nat)
  /-- `IS_LIT(x, y)` (R179). -/
  | isLit (x : BitVec 6) (y : BitVec 5)
  deriving DecidableEq, Repr

/-- What a host-side operation answers: the state after it and its outputs in order, or the reason it stops. -/
abbrev HostResult := Outcome (State × List Output) Fault Refusal

/-- One operation after another, the outputs joined in order. -/
def HostResult.andThen (first : HostResult) (second : State → HostResult) : HostResult :=
  match first with
  | .fault r => .fault r
  | .refused r => .refused r
  | .next (s, out) =>
    match second s with
    | .fault r => .fault r
    | .refused r => .refused r
    | .next (t, out') => .next (t, out ++ out')

/-! ## LOAD, keys, speed, pixel query -/

/-- The state after a successful `LOAD(prog)`: every field at its reset value, the program at 0x200, `SPEED` kept (R171,
R37). The model's own `draws` is kept too: it is no state of the block. -/
def State.loaded (s : State) (prog : List Byte) : State :=
  { State.reset with
    mem := State.reset.mem.writeBytes Config.progBase prog
    speed := s.speed
    draws := s.draws }

/-- `LOAD(prog)` (R171): the reset, or `LOAD_ERROR` and no state change when the program is longer than 3584 bytes. -/
def State.load (s : State) (prog : List Byte) : State × List Output :=
  if prog.length > Config.maxProg then (s, [.loadError]) else (s.loaded prog, [])

/-- `PRESS(k)` (R172): `KEY[k] <- 1`, and if the machine waits, `V[WAIT_REG] <- k` and `WAITING <- 0`. -/
def State.press (s : State) (k : Nibble) : State :=
  let t := { s with key := s.key.set k.toNat true }
  if t.waiting then { t.writeV t.waitReg (k.setWidth 8) with waiting := false } else t

/-- `RELEASE(k)` (R173): `KEY[k] <- 0`. -/
def State.release (s : State) (k : Nibble) : State := { s with key := s.key.set k.toNat false }

/-- `SET_SPEED(n)` (R178). -/
def State.setSpeed (s : State) (n : Nat) : State := { s with speed := n }

/-- `IS_LIT(x, y)` (R179). -/
def State.isLit (s : State) (x : BitVec 6) (y : BitVec 5) : Bool := s.fb.pixel x y

/-! ## ADVANCE, part 1: the tick count (R174) -/

/-- `elapsed * 60`, the elapsed ticks before rounding; 0 on the first ADVANCE after a LOAD (R174). -/
def State.elapsedTicks (s : State) (now : Time) : Rat :=
  if s.hasBaseline then (now - s.lastTime) * Config.tickHz else 0

/-- A tie: exactly halfway between two integers. How it rounds is not in the source (R174). -/
def isTie (q : Rat) : Bool := decide (q - q.floor = 1 / 2)

/-- `max(1, round(q))`, a tie rounded up or down as `up` says (R174). -/
def roundedTicks (q : Rat) (up : Bool) : Nat :=
  max 1 (if isTie q then q.floor + (if up then 1 else 0) else (q + 1 / 2).floor).toNat

/-- The tick count of an ADVANCE (R174); only a tie uses the free value. -/
def State.tickCount (s : State) (now : Time) : Nat :=
  roundedTicks (s.elapsedTicks now) (Config.tieRoundsUp s.draws)

/-- `HAS_BASELINE <- 1; LAST_TIME <- now` (R174), and a free value consumed if there was a tie: the model's
counter advances, which is no state of the block (assumption log 4, 5). -/
def State.withBaseline (s : State) (now : Time) : State :=
  { s with
    hasBaseline := true
    lastTime := now
    draws := if isTie (s.elapsedTicks now) then s.draws + 1 else s.draws }

/-! ## ADVANCE, part 2: the tick phase (R175, R176) -/

/-- `if t > 0: t <- t - 1` (R175). -/
def countDown (t : Byte) : Byte := if t.toNat > 0 then t - 1 else t

/-- One tick: both timers count down (R175). -/
def State.tick (s : State) : State := { s with dt := countDown s.dt, st := countDown s.st }

/-- The buzzer signal after a tick's decrement (R176). -/
def State.buzzer (s : State) : Output := if s.st.toNat > 0 then .soundStart else .soundStop

/-- `n` ticks in order, one buzzer signal each (R175, R176). -/
def State.tickPhase : Nat → State → State × List Output
  | 0, s => (s, [])
  | n + 1, s => ((State.tickPhase n s.tick).1, s.tick.buzzer :: (State.tickPhase n s.tick).2)

/-! ## ADVANCE, part 3: the instruction phase (R177, R181) -/

/-- The report emitted by a slot that set `FAULT`: once, by the step that sets it (R181). -/
def slotReport (before after : State) : List Output :=
  match before.fault, after.fault with
  | none, some f => [.faultReport f.kind f.info]
  | _, _ => []

/-- One instruction slot with the report it emits (R177, R181). -/
def State.slot (s : State) : HostResult :=
  match step s with
  | .fault r => .fault r
  | .refused r => .refused r
  | .next t => .next (t, slotReport s t)

/-- `k` instruction slots in order (R177). -/
def State.slots : Nat → State → HostResult
  | 0, s => .next (s, [])
  | k + 1, s => s.slot.andThen (State.slots k)

/-- An ADVANCE whose tick count is `n`: all `n` ticks, then `n * SPEED` slots, `SPEED` read once (R175, R177, R183). A claim
about programs is made for every sequence of such `n` (R174: "a draw, any natural number"; assumption log 17). -/
def State.advanceBy (s : State) (n : Nat) : HostResult :=
  HostResult.andThen (.next (s.tickPhase n)) fun t => t.slots (n * t.speed)

/-- `ADVANCE(now)` (R183), for a `now` not earlier than the previous one (R184). -/
def State.advance (s : State) (now : Time) : HostResult :=
  if s.hasBaseline && decide (now < s.lastTime) then .refused .timeRunsBackwards
  else (s.withBaseline now).advanceBy (s.tickCount now)

/-! ## The top-level transition system (R170, R184) -/

/-- One host operation on the block, with what it emits or replies, in order (R170, R183). -/
def hostStep (op : HostOp) (s : State) : HostResult :=
  match op with
  | .load prog => .next (s.load prog)
  | .press k => .next (s.press k, [])
  | .release k => .next (s.release k, [])
  | .advance now => s.advance now
  | .setSpeed n => .next (s.setSpeed n, [])
  | .isLit x y => .next (s, [.lit (s.isLit x y)])

/-- A sequence of host operations (R184: in any order between ADVANCEs). -/
def hostRun : List HostOp → State → HostResult
  | [], s => .next (s, [])
  | op :: rest, s => (hostStep op s).andThen (hostRun rest)

end Sys2Proof.Machine
end

