-- ==== Sys2Proof/Safety.lean ====
section
/-! DEFINITION. What claims about the machine are stated in: the invariant of good states, what counts as faulted and as
waiting, and the fields a program cannot reach. -/

namespace Sys2Proof.Machine

/-- `MEM` in its canonical form, no cell outside 0 to 4095 (20_memory.md R50). -/
abbrev State.MemoryCanonical (s : State) : Prop := s.mem.wf = true

/-- `SP` is 0 to 16 (10_state.md R26). -/
abbrev State.StackPointerLegal (s : State) : Prop := s.sp.toNat ≤ 16

/-- `PC` is at most 0x10FE and every return address at most 4096, so no addition to `PC` wraps (R24). -/
abbrev State.PcBounded (s : State) : Prop := s.pc.toNat ≤ 0x10FE ∧ ∀ j : Fin 16, s.stack[j].toNat ≤ 4096

/-- `WAITING = 1` and `FAULT != none` never hold together (46_host_operations.md R172). -/
abbrev State.LatchesExclusive (s : State) : Prop := ¬(s.waiting = true ∧ s.fault ≠ none)

/-- The invariant of the states a run from LOAD reaches. -/
abbrev State.Good (s : State) : Prop :=
  s.MemoryCanonical ∧ s.StackPointerLegal ∧ s.PcBounded ∧ s.LatchesExclusive

/-- `FAULT` is set: execution has stopped until a LOAD (60_exceptions.md R198, R199). -/
abbrev State.Faulted (s : State) : Prop := s.fault ≠ none

/-- The machine waits for a key (10_state.md R31). -/
abbrev State.Waiting (s : State) : Prop := s.waiting = true

/-- What only the host changes is kept (60_exceptions.md R202: `SPEED`, the scheduler baseline, `KEY`). -/
abbrev State.SameHostState (s t : State) : Prop :=
  t.key = s.key ∧ t.speed = s.speed ∧ t.hasBaseline = s.hasBaseline ∧ t.lastTime = s.lastTime

/-- Two states a program cannot tell apart by what it reads: they differ at most in `ST`, `SPEED` and the scheduler baseline
(45_timers_input.md R166). -/
abbrev State.SameToProgram (s t : State) : Prop :=
  t = { s with st := t.st, speed := t.speed, hasBaseline := t.hasBaseline, lastTime := t.lastTime }

/-- Every byte of memory reads in `t` as in `s`. -/
abbrev State.SameBytes (s t : State) : Prop := ∀ a, t.mem.read a = s.mem.read a

/-- The sprite `Dxyn` draws in state `s` has a 1 bit that lands on pixel `(px, py)`: row `r` of the `n` bytes at `I`, column
`c` from the left, wrapped modulo 64 and 32 (44_graphics.md R152). -/
def State.SpriteCovers (s : State) (x y n : Nibble) (px : BitVec 6) (py : BitVec 5) : Prop :=
  ∃ r c : Nat, r < n.toNat ∧ c < 8 ∧ (s.mem.read (s.i.toNat + r)).getLsbD (7 - c) = true ∧
    px.toNat = ((s.readV x).toNat + c) % 64 ∧ py.toNat = ((s.readV y).toNat + r) % 32

/-- The instructions that may leave `PC` elsewhere than at their address plus 2 (10_state.md R24): return, jumps, call and the
six skips. -/
def transfersControl : Instr → Bool
  | .ret | .jp _ | .call _ | .jpV0 _ => true
  | .seImm _ _ | .sneImm _ _ | .seReg _ _ | .sneReg _ _ | .skp _ | .sknp _ => true
  | .cls | .cls0 | .drw _ _ _ => false
  | .ldImm _ _ | .addImm _ _ | .ldReg _ _ | .orReg _ _ | .andReg _ _ | .xorReg _ _ => false
  | .addReg _ _ | .subReg _ _ | .shr _ _ | .subn _ _ | .shl _ _ | .rnd _ _ => false
  | .ldI _ | .addI _ | .ldF _ | .ldB _ | .stRegs _ | .ldRegs _ => false
  | .ldVxDt _ | .ldVxK _ | .ldDtVx _ | .ldStVx _ => false

/-- Whether an instruction may write the general register `r`: as its destination, as VF when it writes the flag, or as one
of the registers a load fills (R20, R22). -/
def mayWriteReg (i : Instr) (r : Nibble) : Bool :=
  match i with
  | .ldImm x _ | .addImm x _ | .ldReg x _ | .orReg x _ | .andReg x _ | .xorReg x _ | .rnd x _ | .ldVxDt x => r == x
  | .addReg x _ | .subReg x _ | .shr x _ | .subn x _ | .shl x _ => r == x || r == 15
  | .drw _ _ _ => r == 15
  | .ldRegs x => decide (r.toNat ≤ x.toNat)
  | .ret | .jp _ | .call _ | .jpV0 _ | .seImm _ _ | .sneImm _ _ | .seReg _ _ | .sneReg _ _ | .skp _ | .sknp _ => false
  | .cls | .cls0 | .ldI _ | .addI _ | .ldF _ | .ldB _ | .stRegs _ | .ldVxK _ | .ldDtVx _ | .ldStVx _ => false

end Sys2Proof.Machine
end

