-- ==== Sys2Proof/Certificates/Slice0/Obligations.lean ====
section
/-! DEFINITION. The statements for the provers. Every statement about `exec` takes the state whose `PC` is already the
instruction's address plus 2 (40_step_cycle.md R92). A record update `{ s with … }` as the next state says the whole frame:
every field not named keeps its value, memory included. -/

open Sys2Proof Sys2Proof.Machine

/-! ## Encoding and decoding -/

/-- R71, R72, R75: no bit of an encoding is dropped; decoding an encoded instruction gives it back, for every instruction and
every operand. -/
def Obligations.DecodeEncodeRoundTrip : Prop :=
  ∀ i : Instr, decode (encode i) = .instr i

/-- R72, R75: where a word decodes, encoding the instruction gives the word back. -/
def Obligations.EncodeInvertsDecode : Prop :=
  ∀ (op : Word) (i : Instr), decode op = .instr i → encode i = op

/-- R74: a word is the instruction of the one row with `w & mask = match`, and illegal if there is none. -/
def Obligations.DecodeFollowsTheOpcodeTable : Prop :=
  ∀ op : Word,
    (∀ bad, decode op = .invalidOpcode bad ↔ bad = op ∧ ∀ row ∈ opcodeRows, row.matchesWord op = false) ∧
    (∀ i, decode op = .instr i → ∀ row ∈ opcodeRows, (row.matchesWord op = true ↔ row.mnemonic = mnemonicOf i))

/-- Eight encoding examples of 95_test_vectors.md section 2 and one illegal word of its section 3 decode as written there. -/
def Obligations.WordsOfTheSpecDecode : Prop :=
  decode 0x00E0 = .instr .cls ∧ decode 0x1ABC = .instr (.jp 0xABC) ∧ decode 0x3A7F = .instr (.seImm 0xA 0x7F) ∧
  decode 0x8014 = .instr (.addReg 0x0 0x1) ∧ decode 0xA2F0 = .instr (.ldI 0x2F0) ∧
  decode 0xD125 = .instr (.drw 0x1 0x2 0x5) ∧ decode 0xE2A1 = .instr (.sknp 0x2) ∧ decode 0xF60A = .instr (.ldVxK 0x6) ∧
  decode 0x8AB8 = .invalidOpcode 0x8AB8

/-! ## The step cycle -/

/-- R92 (with R90, R54): when the slot is open and the two bytes at `PC`, high byte first, decode to `i`, the step is `exec i` on
the state whose `PC` is advanced by 2, and nothing else stands around it. The byte order is the spec's own D2. -/
def Obligations.StepRunsTheDecodedInstruction : Prop :=
  ∀ (s : State) (i : Instr), s.fault = none → s.waiting = false → s.pc.toNat ≤ 4094 →
    decode (s.mem.read s.pc.toNat ++ s.mem.read (s.pc.toNat + 1)) = .instr i →
    step s = exec i { s with pc := s.pc + 2 }

/-- R90: while `FAULT` is set or `WAITING` is 1 the slot is skipped and no state changes (per slot: the spec's own D17). -/
def Obligations.ClosedSlotChangesNothing : Prop :=
  ∀ s : State, s.fault ≠ none ∨ s.waiting = true → step s = .next s

/-- R91: the fetch reads the two bytes at `PC`, first byte high, at every `PC` from 0 to 4094; from 4095 on an open slot records
`(AddressOutOfRange, PC)` and changes nothing else, `PC` included. Byte order and fault are the spec's own D2, D6, D13. -/
def Obligations.FetchReadsTwoBytesOrFaults : Prop :=
  ∀ s : State,
    (s.pc.toNat ≤ 4094 → s.fetch = some (s.mem.read s.pc.toNat ++ s.mem.read (s.pc.toNat + 1))) ∧
    (4095 ≤ s.pc.toNat → s.fault = none → s.waiting = false →
      step s = .next { s with fault := some ⟨.addressOutOfRange, s.pc⟩ })

/-- R191: a fetched word that matches no row sets `FAULT` to `(InvalidOpcode, word)`, with `PC` advanced and nothing else
changed. That these words are illegal is the spec's own D4. -/
def Obligations.IllegalWordFaults : Prop :=
  ∀ (s : State) (op : Word), s.fault = none → s.waiting = false → s.pc.toNat ≤ 4094 →
    op = s.mem.read s.pc.toNat ++ s.mem.read (s.pc.toNat + 1) →
    (∀ row ∈ opcodeRows, row.matchesWord op = false) →
    step s = .next { s with pc := s.pc + 2, fault := some ⟨.invalidOpcode, op⟩ }

/-! ## Control transfer -/

/-- R100: RET at `SP = 0` raises `StackUnderflow`; for `SP` from 1 to 16 it subtracts 1 and sets `PC` to the entry there; nothing
else changes, the popped entry included. The underflow is the spec's own D8. -/
def Obligations.ReturnPopsOrUnderflows : Prop :=
  ∀ s : State,
    (s.sp = 0 → exec .ret s = .next { s with fault := some ⟨.stackUnderflow, 0x00EE⟩ }) ∧
    (∀ j : Fin 16, s.sp.toNat = j.val + 1 →
      exec .ret s = .next { s with sp := BitVec.ofNat 5 j.val, pc := s.stack[j] })

/-- R102: CALL at `SP = 16` raises `StackOverflow`; for `SP` from 0 to 15 it stores `PC` in `STACK[SP]`, adds 1 to `SP` and sets
`PC` to `nnn`; nothing else changes. The overflow is the spec's own D8. -/
def Obligations.CallPushesOrOverflows : Prop :=
  ∀ (s : State) (nnn : Addr),
    (s.sp = 16 → exec (.call nnn) s = .next { s with fault := some ⟨.stackOverflow, 0x2#4 ++ nnn⟩ }) ∧
    (∀ j : Fin 16, s.sp.toNat = j.val →
      exec (.call nnn) s = .next { s with
        stack := s.stack.set j.val s.pc
        sp := BitVec.ofNat 5 (j.val + 1)
        pc := nnn.setWidth 16 })

/-- The model's own stops, no rule of the spec: `SP` above 16, which R26 says never is, stops RET and CALL (assumption log 8), and
an ADVANCE to an earlier time, which R184 does not allow, is refused (assumption log 6). -/
def Obligations.ModelStopsOutsideTheSpec : Prop :=
  ∀ (s : State) (nnn : Addr) (now : Time),
    (16 < s.sp.toNat → exec .ret s = .fault .stackPointerOutOfRange ∧
      exec (.call nnn) s = .fault .stackPointerOutOfRange) ∧
    (s.hasBaseline = true → now < s.lastTime → hostStep (.advance now) s = .refused .timeRunsBackwards)

/-- R100, R102: a return after a call gives back the caller's `PC` and `SP`, whatever `PC` the subroutine has reached; the stack
keeps the stale entry (R25). -/
def Obligations.CallThenReturnComesBack : Prop :=
  ∀ (s : State) (nnn : Addr) (p : Word), s.sp.toNat < 16 →
    ∃ t, exec (.call nnn) s = .next t ∧
      exec .ret { t with pc := p } = .next { s with stack := t.stack }

/-- R101, R107: JP sets `PC` to `nnn`; JP V0 sets it to `nnn + V[0]`, not reduced modulo 4096; nothing else changes. -/
def Obligations.JumpsSetPc : Prop :=
  ∀ (s : State) (nnn : Addr),
    exec (.jp nnn) s = .next { s with pc := nnn.setWidth 16 } ∧
    exec (.jpV0 nnn) s = .next { s with pc := BitVec.ofNat 16 (nnn.toNat + (s.readV 0).toNat) }

/-- R103, R104, R105, R106: the four register skips add 2 to `PC` when their condition holds, and change nothing else. -/
def Obligations.RegisterSkipsAddTwo : Prop :=
  ∀ (s : State) (x y : Nibble) (kk : Byte),
    exec (.seImm x kk) s = .next (if s.readV x = kk then { s with pc := s.pc + 2 } else s) ∧
    exec (.sneImm x kk) s = .next (if s.readV x ≠ kk then { s with pc := s.pc + 2 } else s) ∧
    exec (.seReg x y) s = .next (if s.readV x = s.readV y then { s with pc := s.pc + 2 } else s) ∧
    exec (.sneReg x y) s = .next (if s.readV x ≠ s.readV y then { s with pc := s.pc + 2 } else s)

/-- R96: a jump to its own address keeps executing and changes no state. -/
def Obligations.JumpToSelfChangesNothing : Prop :=
  ∀ (s : State) (nnn : Addr), s.fault = none → s.waiting = false → s.pc.toNat ≤ 4094 →
    decode (s.mem.read s.pc.toNat ++ s.mem.read (s.pc.toNat + 1)) = .instr (.jp nnn) → nnn.toNat = s.pc.toNat →
    step s = .next s

/-! ## Register loads, arithmetic, logic, shifts, random -/

/-- R120, R122: `V[x]` becomes `kk`, or `V[y]`; no other register and nothing else changes (memory, flags, `PC`). -/
def Obligations.LoadsWriteOneRegister : Prop :=
  ∀ (s : State) (x y : Nibble) (kk : Byte),
    (∃ t, exec (.ldImm x kk) s = .next t ∧ t = { s with v := t.v } ∧
      ∀ r, t.readV r = if r = x then kk else s.readV r) ∧
    (∃ t, exec (.ldReg x y) s = .next t ∧ t = { s with v := t.v } ∧
      ∀ r, t.readV r = if r = x then s.readV y else s.readV r)

/-- R121: `V[x]` becomes `(V[x] + kk) mod 256`; the carry is lost: VF is not written (unless it is `V[x]`). -/
def Obligations.AddImmediateWraps : Prop :=
  ∀ (s : State) (x : Nibble) (kk : Byte),
    ∃ t, exec (.addImm x kk) s = .next t ∧ t = { s with v := t.v } ∧
      ∀ r, t.readV r = if r = x then BitVec.ofNat 8 (((s.readV x).toNat + kk.toNat) % 256) else s.readV r

/-- R123, R124, R125: OR, AND, XOR of `V[x]` and `V[y]` into `V[x]`, bit by bit; VF neither cleared nor set (unless it is
`V[x]`). -/
def Obligations.LogicIsBitwiseWithoutFlag : Prop :=
  ∀ (s : State) (x y : Nibble),
    (∃ t, exec (.orReg x y) s = .next t ∧ t = { s with v := t.v } ∧ (∀ r, r ≠ x → t.readV r = s.readV r) ∧
      ∀ k, (t.readV x).getLsbD k = ((s.readV x).getLsbD k || (s.readV y).getLsbD k)) ∧
    (∃ t, exec (.andReg x y) s = .next t ∧ t = { s with v := t.v } ∧ (∀ r, r ≠ x → t.readV r = s.readV r) ∧
      ∀ k, (t.readV x).getLsbD k = ((s.readV x).getLsbD k && (s.readV y).getLsbD k)) ∧
    (∃ t, exec (.xorReg x y) s = .next t ∧ t = { s with v := t.v } ∧ (∀ r, r ≠ x → t.readV r = s.readV r) ∧
      ∀ k, (t.readV x).getLsbD k = Bool.xor ((s.readV x).getLsbD k) ((s.readV y).getLsbD k))

/-- R126: `V[x]` becomes the sum modulo 256 and VF is 1 if the sum passes 255, else 0; when `x = 15` the sum remains
(the spec's own D10). -/
def Obligations.AddReportsCarry : Prop :=
  ∀ (s : State) (x y : Nibble),
    ∃ t, exec (.addReg x y) s = .next t ∧ t = { s with v := t.v } ∧
      ∀ r, t.readV r =
        if r = x then BitVec.ofNat 8 (((s.readV x).toNat + (s.readV y).toNat) % 256)
        else if r = 15 then (if (s.readV x).toNat + (s.readV y).toNat > 255 then 1 else 0)
        else s.readV r

/-- R127, R129: the difference modulo 256 and VF = NOT borrow, equality counting as no borrow, for `V[x] - V[y]` and for
`V[y] - V[x]`, both into `V[x]`; when `x = 15` the difference remains (the spec's own D10). -/
def Obligations.SubtractReportsNoBorrow : Prop :=
  ∀ (s : State) (x y : Nibble),
    (∃ t, exec (.subReg x y) s = .next t ∧ t = { s with v := t.v } ∧
      ∀ r, t.readV r =
        if r = x then BitVec.ofNat 8 (((s.readV x).toNat + 256 - (s.readV y).toNat) % 256)
        else if r = 15 then (if (s.readV x).toNat ≥ (s.readV y).toNat then 1 else 0)
        else s.readV r) ∧
    (∃ t, exec (.subn x y) s = .next t ∧ t = { s with v := t.v } ∧
      ∀ r, t.readV r =
        if r = x then BitVec.ofNat 8 (((s.readV y).toNat + 256 - (s.readV x).toNat) % 256)
        else if r = 15 then (if (s.readV y).toNat ≥ (s.readV x).toNat then 1 else 0)
        else s.readV r)

/-- R128, R130: the shifts by one are of `V[x]`, whatever `y` is; VF is the bit shifted out; when `x = 15` the result remains
(the spec's own D10). -/
def Obligations.ShiftsReportTheBitShiftedOut : Prop :=
  ∀ (s : State) (x y : Nibble),
    (∃ t, exec (.shr x y) s = .next t ∧ t = { s with v := t.v } ∧
      ∀ r, t.readV r =
        if r = x then BitVec.ofNat 8 ((s.readV x).toNat / 2)
        else if r = 15 then BitVec.ofNat 8 ((s.readV x).toNat % 2)
        else s.readV r) ∧
    (∃ t, exec (.shl x y) s = .next t ∧ t = { s with v := t.v } ∧
      ∀ r, t.readV r =
        if r = x then BitVec.ofNat 8 ((s.readV x).toNat * 2 % 256)
        else if r = 15 then BitVec.ofNat 8 ((s.readV x).toNat / 128)
        else s.readV r)

/-- R132, R133: for a destination other than VF the flag and the result together hold the exact result: the carry and the sum,
the difference and the borrow, the bit shifted out and the shifted value. -/
def Obligations.FlagAndResultAreExact : Prop :=
  ∀ (s t : State) (x y : Nibble), x ≠ 15 →
    (exec (.addReg x y) s = .next t →
      256 * (t.readV 15).toNat + (t.readV x).toNat = (s.readV x).toNat + (s.readV y).toNat) ∧
    (exec (.subReg x y) s = .next t →
      (t.readV x).toNat + (s.readV y).toNat + 256 * (t.readV 15).toNat = (s.readV x).toNat + 256) ∧
    (exec (.subn x y) s = .next t →
      (t.readV x).toNat + (s.readV x).toNat + 256 * (t.readV 15).toNat = (s.readV y).toNat + 256) ∧
    (exec (.shr x y) s = .next t → 2 * (t.readV x).toNat + (t.readV 15).toNat = (s.readV x).toNat) ∧
    (exec (.shl x y) s = .next t → 256 * (t.readV 15).toNat + (t.readV x).toNat = 2 * (s.readV x).toNat)

/-- R131, R180: `V[x]` becomes one byte of the random source masked with `kk`, so its bits where `kk` has 0 are 0. The byte is
the model's free value `Config.randomByte` at `draws` (assumption log 4); the statement holds for every value of both. -/
def Obligations.RandomByteIsMasked : Prop :=
  ∀ (s : State) (x : Nibble) (kk : Byte),
    ∃ t, exec (.rnd x kk) s = .next t ∧ t = { s with v := t.v, draws := s.draws + 1 } ∧
      (∀ r, t.readV r = if r = x then Config.randomByte s.draws &&& kk else s.readV r) ∧
      (∀ k, kk.getLsbD k = false → (t.readV x).getLsbD k = false)

/-! ## Index register, loads and stores -/

/-- R140, R141, R142: `I` becomes `nnn`; `(I + V[x]) mod 65536`; `V[x] * 5`. Nothing else changes, VF included. -/
def Obligations.IndexInstructionsWriteOnlyI : Prop :=
  ∀ (s : State) (nnn : Addr) (x : Nibble),
    exec (.ldI nnn) s = .next { s with i := nnn.setWidth 16 } ∧
    exec (.addI x) s = .next { s with i := BitVec.ofNat 16 ((s.i.toNat + (s.readV x).toNat) % 65536) } ∧
    exec (.ldF x) s = .next { s with i := BitVec.ofNat 16 ((s.readV x).toNat * 5) }

/-- R143: the three decimal digits of `V[x]` at `I`, `I + 1`, `I + 2`, no other byte and nothing else changed; with `I` of 4094 or
more, `AddressOutOfRange` and nothing written (the spec's own D7). -/
def Obligations.BcdStoresThreeDigits : Prop :=
  ∀ (s : State) (x : Nibble),
    (s.i.toNat + 2 ≤ 4095 →
      ∃ t, exec (.ldB x) s = .next t ∧ t = { s with mem := t.mem } ∧
        t.mem.read s.i.toNat = BitVec.ofNat 8 ((s.readV x).toNat / 100) ∧
        t.mem.read (s.i.toNat + 1) = BitVec.ofNat 8 ((s.readV x).toNat / 10 % 10) ∧
        t.mem.read (s.i.toNat + 2) = BitVec.ofNat 8 ((s.readV x).toNat % 10) ∧
        ∀ a, a < s.i.toNat ∨ s.i.toNat + 2 < a → t.mem.read a = s.mem.read a) ∧
    (s.i.toNat + 2 > 4095 →
      exec (.ldB x) s = .next { s with fault := some ⟨.addressOutOfRange, 0xF#4 ++ x ++ 0x33#8⟩ })

/-- R144: `V[0]` to `V[x]` at `I` to `I + x`, no other byte and nothing else changed, `I` included; when `I + x` passes 4095,
`AddressOutOfRange` and no byte written. The fault and the kept `I` are the spec's own D7 and D11. -/
def Obligations.RegisterDumpStoresAscending : Prop :=
  ∀ (s : State) (x : Nibble),
    (s.i.toNat + x.toNat ≤ 4095 →
      ∃ t, exec (.stRegs x) s = .next t ∧ t = { s with mem := t.mem } ∧
        (∀ r : Nibble, r.toNat ≤ x.toNat → t.mem.read (s.i.toNat + r.toNat) = s.readV r) ∧
        ∀ a, a < s.i.toNat ∨ s.i.toNat + x.toNat < a → t.mem.read a = s.mem.read a) ∧
    (s.i.toNat + x.toNat > 4095 →
      exec (.stRegs x) s = .next { s with fault := some ⟨.addressOutOfRange, 0xF#4 ++ x ++ 0x55#8⟩ })

/-- R145: `V[0]` to `V[x]` from `I` to `I + x`, no other register and nothing else changed, `I` and memory included; when
`I + x` passes 4095, `AddressOutOfRange` and no register written. The fault and the kept `I` are the spec's own D7 and D11. -/
def Obligations.RegisterLoadReadsAscending : Prop :=
  ∀ (s : State) (x : Nibble),
    (s.i.toNat + x.toNat ≤ 4095 →
      ∃ t, exec (.ldRegs x) s = .next t ∧ t = { s with v := t.v } ∧
        ∀ r : Nibble, t.readV r = if r.toNat ≤ x.toNat then s.mem.read (s.i.toNat + r.toNat) else s.readV r) ∧
    (s.i.toNat + x.toNat > 4095 →
      exec (.ldRegs x) s = .next { s with fault := some ⟨.addressOutOfRange, 0xF#4 ++ x ++ 0x65#8⟩ })

/-- R144, R145: registers dumped to memory and loaded back, with anything done to the registers in between, are what they were
when dumped. -/
def Obligations.DumpThenLoadRestoresRegisters : Prop :=
  ∀ (s : State) (x : Nibble) (w : Vector Byte 16), s.i.toNat + x.toNat ≤ 4095 →
    ∃ t u, exec (.stRegs x) s = .next t ∧ exec (.ldRegs x) { t with v := w } = .next u ∧
      (∀ r : Nibble, r.toNat ≤ x.toNat → u.readV r = s.readV r) ∧
      (∀ r : Nibble, x.toNat < r.toNat → u.readV r = w[r.toNat]) ∧ State.SameBytes t u

/-- R60: a store is seen by the very next fetch: a dump executed at `PC` with `I` at the next instruction makes the dumped `V[0]`,
`V[1]` the word fetched next. R60 is the spec's own inference. -/
def Obligations.StoreIsSeenByTheNextFetch : Prop :=
  ∀ (s : State) (x : Nibble), s.fault = none → s.waiting = false → s.pc.toNat ≤ 4092 → 1 ≤ x.toNat →
    decode (s.mem.read s.pc.toNat ++ s.mem.read (s.pc.toNat + 1)) = .instr (.stRegs x) →
    s.i = s.pc + 2 → s.i.toNat + x.toNat ≤ 4095 →
    ∃ t, step s = .next t ∧ t.fetch = some (s.readV 0 ++ s.readV 1)

/-! ## Graphics -/

/-- R150, R151: after `00E0`, and after the word `0000`, every pixel is unlit and nothing else has changed. That `0000`
clears the screen is the spec's own D5. -/
def Obligations.ClearScreenUnlightsEveryPixel : Prop :=
  ∀ s : State,
    (∃ t, exec .cls s = .next t ∧ t = { s with fb := t.fb } ∧ ∀ x y, t.fb.pixel x y = false) ∧
    (∃ t, exec .cls0 s = .next t ∧ t = { s with fb := t.fb } ∧ ∀ x y, t.fb.pixel x y = false)

/-- R152: a draw toggles exactly the pixels a 1 bit of the sprite lands on, wrapped per pixel; VF is 1 if one of them was lit, else
0; no other register and nothing else changes; when `n > 0` and `I + n - 1` passes 4095, `AddressOutOfRange` and neither a pixel
nor VF is touched. The fault, and the sampling of the coordinates before VF is written, are the spec's own D7 and D10. -/
def Obligations.DrawTogglesTheSpritePixels : Prop :=
  ∀ (s : State) (x y n : Nibble),
    (n = 0 ∨ s.i.toNat + n.toNat - 1 ≤ 4095 →
      ∃ t, exec (.drw x y n) s = .next t ∧ t = { s with fb := t.fb, v := t.v } ∧
        (∀ px py, s.SpriteCovers x y n px py → t.fb.pixel px py = !s.fb.pixel px py) ∧
        (∀ px py, ¬ s.SpriteCovers x y n px py → t.fb.pixel px py = s.fb.pixel px py) ∧
        ((∃ px py, s.SpriteCovers x y n px py ∧ s.fb.pixel px py = true) → t.readV 15 = 1) ∧
        ((∀ px py, s.SpriteCovers x y n px py → s.fb.pixel px py = false) → t.readV 15 = 0) ∧
        ∀ r, r ≠ 15 → t.readV r = s.readV r) ∧
    (n ≠ 0 ∧ s.i.toNat + n.toNat - 1 > 4095 →
      exec (.drw x y n) s = .next { s with fault := some ⟨.addressOutOfRange, 0xD#4 ++ x ++ y ++ n⟩ })

/-- R154: drawing the identical sprite at the identical position twice restores the framebuffer, and the second draw reports
collision exactly when the first turned a pixel lit. Neither coordinate register is VF. R154 is the spec's own reading of
its source's law. -/
def Obligations.DrawTwiceRestoresTheScreen : Prop :=
  ∀ (s : State) (x y n : Nibble), x ≠ 15 → y ≠ 15 → (n = 0 ∨ s.i.toNat + n.toNat - 1 ≤ 4095) →
    ∃ t u, exec (.drw x y n) s = .next t ∧ exec (.drw x y n) t = .next u ∧ u = { s with v := u.v } ∧
      (u.readV 15 = 1 ∨ u.readV 15 = 0) ∧
      (u.readV 15 = 1 ↔ ∃ px py, s.fb.pixel px py = false ∧ t.fb.pixel px py = true)

/-! ## Timers and keypad -/

/-- R160, R161: the key skips look up `KEY[V[x]]` and add 2 to `PC` if it is pressed, or not pressed; `V[x]` above 15 raises
`KeyIndexOutOfRange` (the spec's own D9); nothing else changes. -/
def Obligations.KeySkipsReadTheLatch : Prop :=
  ∀ (s : State) (x : Nibble),
    (∀ k : Fin 16, (s.readV x).toNat = k.val →
      exec (.skp x) s = .next (if s.key[k] = true then { s with pc := s.pc + 2 } else s) ∧
      exec (.sknp x) s = .next (if s.key[k] = false then { s with pc := s.pc + 2 } else s)) ∧
    ((s.readV x).toNat > 15 →
      exec (.skp x) s = .next { s with fault := some ⟨.keyIndexOutOfRange, 0xE#4 ++ x ++ 0x9E#8⟩ } ∧
      exec (.sknp x) s = .next { s with fault := some ⟨.keyIndexOutOfRange, 0xE#4 ++ x ++ 0xA1#8⟩ })

/-- R162, R164, R165: `V[x]` becomes `DT`; `DT` becomes `V[x]`; `ST` becomes `V[x]`; nothing else changes. -/
def Obligations.TimerInstructionsCopyAByte : Prop :=
  ∀ (s : State) (x : Nibble),
    (∃ t, exec (.ldVxDt x) s = .next t ∧ t = { s with v := t.v } ∧
      ∀ r, t.readV r = if r = x then s.dt else s.readV r) ∧
    exec (.ldDtVx x) s = .next { s with dt := s.readV x } ∧
    exec (.ldStVx x) s = .next { s with st := s.readV x }

/-- R163: Fx0A completes in its step with `WAITING` set and `x` remembered; nothing else changes, `V[x]` and `PC` included, and the
step of the state it leaves changes nothing. -/
def Obligations.WaitForKeyCompletesAndWaits : Prop :=
  ∀ (s : State) (x : Nibble),
    exec (.ldVxK x) s = .next { s with waiting := true, waitReg := x } ∧
    step { s with waiting := true, waitReg := x } = .next { s with waiting := true, waitReg := x }

/-! ## Host operations -/

/-- R171: LOAD of a program longer than 3584 bytes replies `LOAD_ERROR` and changes nothing; any other leaves the font at 0 to 79,
the program at 0x200, every other byte 0, `PC` 0x200, every register, the stack, the timers, the screen, the latch and the wait
state 0, no fault, no baseline, and `SPEED` as it was. The zeros and the failed LOAD are the spec's own D15 and D27. -/
def Obligations.LoadResetsTheMachine : Prop :=
  ∀ (s : State) (prog : List Byte),
    (prog.length > 3584 → hostStep (.load prog) s = .next (s, [.loadError])) ∧
    (prog.length ≤ 3584 →
      ∃ t, hostStep (.load prog) s = .next (t, []) ∧
        (∀ a, t.mem.read a =
          if a < 80 then fontTable.getD a 0
          else if 0x200 ≤ a ∧ a < 0x200 + prog.length then prog.getD (a - 0x200) 0
          else 0) ∧
        t.pc = 0x200 ∧ (∀ r, t.readV r = 0) ∧ t.i = 0 ∧ t.sp = 0 ∧ (∀ j : Fin 16, t.stack[j] = 0) ∧
        t.dt = 0 ∧ t.st = 0 ∧ (∀ x y, t.fb.pixel x y = false) ∧ (∀ k : Fin 16, t.key[k] = false) ∧
        t.waiting = false ∧ t.waitReg = 0 ∧ t.fault = none ∧ t.hasBaseline = false ∧ t.speed = s.speed)

/-- R37: the values of the state after reset that the spec gives (LOAD of the empty program, `SPEED` never set). The zeros
are the spec's own D15. -/
def Obligations.ResetHasTheSpecValues : Prop :=
  (∀ a, State.reset.mem.read a = if a < 80 then fontTable.getD a 0 else 0) ∧
  State.reset.pc = 0x200 ∧ (∀ r, State.reset.readV r = 0) ∧ State.reset.i = 0 ∧ State.reset.sp = 0 ∧
  (∀ j : Fin 16, State.reset.stack[j] = 0) ∧ State.reset.dt = 0 ∧ State.reset.st = 0 ∧
  (∀ x y, State.reset.fb.pixel x y = false) ∧ (∀ k : Fin 16, State.reset.key[k] = false) ∧
  State.reset.waiting = false ∧ State.reset.waitReg = 0 ∧ State.reset.fault = none ∧
  State.reset.hasBaseline = false ∧ State.reset.speed = 12

/-- R172, R173: PRESS sets the latch bit and, when the machine waits, stores the key in the remembered register and ends the wait,
whether or not the key was already down (the spec's own D19); RELEASE clears the bit and ends nothing; neither changes anything
else. -/
def Obligations.KeyEventsUpdateTheLatch : Prop :=
  ∀ (s : State) (k : Nibble),
    (s.waiting = false → hostStep (.press k) s = .next ({ s with key := s.key.set k.toNat true }, [])) ∧
    (s.waiting = true →
      ∃ t, hostStep (.press k) s = .next (t, []) ∧
        t = { s with key := s.key.set k.toNat true, v := t.v, waiting := false } ∧
        ∀ r, t.readV r = if r = s.waitReg then BitVec.ofNat 8 k.toNat else s.readV r) ∧
    hostStep (.release k) s = .next ({ s with key := s.key.set k.toNat false }, [])

/-- R178, R179: SET_SPEED writes `SPEED` and nothing else, with no bound (0 included: the spec's own D20); IS_LIT answers the
pixel and changes nothing. -/
def Obligations.SpeedAndPixelOperations : Prop :=
  ∀ (s : State) (n : Nat) (x : BitVec 6) (y : BitVec 5),
    hostStep (.setSpeed n) s = .next ({ s with speed := n }, []) ∧
    hostStep (.isLit x y) s = .next (s, [.lit (s.fb.pixel x y)])

/-- R174: ADVANCE takes `max(1, round(elapsed * 60))` as its tick count, elapsed being 0 on the first ADVANCE after a LOAD, and
records the time. A tie may round either way. `draws` may move (assumption log 5); nothing rests on it. -/
def Obligations.TickCountIsTheNearestButAtLeastOne : Prop :=
  ∀ (s : State) (now : Time), (s.hasBaseline = true → s.lastTime ≤ now) →
    ∃ (n d : Nat) (q : Rat), q = (if s.hasBaseline then (now - s.lastTime) * 60 else 0) ∧
      hostStep (.advance now) s =
        ({ s with hasBaseline := true, lastTime := now, draws := d } : State).advanceBy n ∧
      1 ≤ n ∧ (q ≤ 1 / 2 → n = 1) ∧ (1 / 2 ≤ q → |(n : Rat) - q| ≤ 1 / 2)

/-- R175, R176, R177: an ADVANCE of `n` ticks counts both timers down by `n`, floored at 0, with one buzzer signal after each tick
(start while `ST` is above 0), all before its instructions; then come `n * SPEED` slots. -/
def Obligations.AdvanceTicksThenRunsItsQuota : Prop :=
  ∀ (s : State) (n : Nat),
    s.advanceBy n =
      HostResult.andThen
        (.next ({ s with dt := BitVec.ofNat 8 (s.dt.toNat - n), st := BitVec.ofNat 8 (s.st.toNat - n) },
          (List.range n).map fun k => if k + 1 < s.st.toNat then Output.soundStart else Output.soundStop))
        (State.slots (n * s.speed))

/-- R177: `k` slots leave the state `k` steps leave. -/
def Obligations.SlotsAreSteps : Prop :=
  ∀ (k : Nat) (s t : State), (∃ out, s.slots k = .next (t, out)) ↔ Sys2Proof.core.run k s = .next t

/-- R181, R183: the outputs of an ADVANCE of `n` ticks are `n` buzzer signals, then one report exactly when this ADVANCE set `FAULT`,
with the kind and info recorded there. The report of the four added faults is the spec's own D12. -/
def Obligations.AdvanceReportsAFaultOnce : Prop :=
  ∀ (s t : State) (n : Nat) (out : List Output), s.advanceBy n = .next (t, out) →
    ∃ signals reports, out = signals ++ reports ∧ signals.length = n ∧
      (∀ o ∈ signals, o = .soundStart ∨ o = .soundStop) ∧
      ((reports = [] ∧ t.fault = s.fault) ∨
        (s.fault = none ∧ ∃ f, t.fault = some f ∧ reports = [.faultReport f.kind f.info]))

/-- R90, R198, R207: an ADVANCE of a faulted or waiting machine runs no instruction: it only counts the timers down and signals the
buzzer. -/
def Obligations.StoppedMachineOnlyTicks : Prop :=
  ∀ (s : State) (n : Nat), s.Faulted ∨ s.Waiting →
    s.advanceBy n = .next
      ({ s with dt := BitVec.ofNat 8 (s.dt.toNat - n), st := BitVec.ofNat 8 (s.st.toNat - n) },
        (List.range n).map fun k => if k + 1 < s.st.toNat then Output.soundStart else Output.soundStop)

/-- R32, R199: no host operation but a LOAD that fits clears `FAULT` or changes what it records, and none reports it again (the
spec's own D12, D27). -/
def Obligations.OnlyLoadClearsAFault : Prop :=
  ∀ (op : HostOp) (s t : State) (out : List Output), s.Faulted →
    (∀ prog, op = .load prog → ¬ ProgramFits prog) → hostStep op s = .next (t, out) →
    t.fault = s.fault ∧ ∀ kind info, Output.faultReport kind info ∉ out

/-! ## Invariants -/

/-- R24, R26, R50, R172: every step from a good state completes, in a good state: memory canonical, `SP` at most 16, `PC` at most
0x10FE and return addresses at most 4096, `WAITING` and `FAULT` never both set. -/
def Obligations.StepKeepsGoodStates : Prop :=
  ∀ s : State, s.Good → ∃ t, step s = .next t ∧ t.Good

/-- The state after reset is good. -/
def Obligations.ResetIsGood : Prop := State.reset.Good

/-- R171 to R179: every host operation keeps good states good, and none ends in a fault of the model. -/
def Obligations.HostOperationsKeepGoodStates : Prop :=
  ∀ (op : HostOp) (s : State), s.Good →
    (∀ r, hostStep op s ≠ .fault r) ∧ ∀ t out, hostStep op s = .next (t, out) → t.Good

/-! ## Whole-machine rules -/

/-- R20, R50: memory is written by Fx33 and Fx55 only, `I` by Annn, Fx1E, Fx29, the stack by 2nnn, `SP` by 2nnn and 00EE. -/
def Obligations.WritersOfMemoryIndexAndStack : Prop :=
  ∀ (i : Instr) (s t : State), exec i s = .next t →
    (t.mem ≠ s.mem → ∃ x, i = .ldB x ∨ i = .stRegs x) ∧
    (t.i ≠ s.i → ∃ x nnn, i = .ldI nnn ∨ i = .addI x ∨ i = .ldF x) ∧
    (t.stack ≠ s.stack → ∃ nnn, i = .call nnn) ∧
    (t.sp ≠ s.sp → ∃ nnn, i = .call nnn ∨ i = .ret)

/-- R20, R153: `DT` is written by Fx15 only, `ST` by Fx18, the screen by 00E0, 0000 and Dxyn, the wait state by Fx0A. And Cxkk is
the only instruction that consumes a free value: this clause is the model's own, read off its counter `draws`, which is no state
of the block (assumption log 4). -/
def Obligations.WritersOfTimersScreenAndWait : Prop :=
  ∀ (i : Instr) (s t : State), exec i s = .next t →
    (t.dt ≠ s.dt → ∃ x, i = .ldDtVx x) ∧
    (t.st ≠ s.st → ∃ x, i = .ldStVx x) ∧
    (t.fb ≠ s.fb → ∃ x y n, i = .cls ∨ i = .cls0 ∨ i = .drw x y n) ∧
    (t.waiting ≠ s.waiting ∨ t.waitReg ≠ s.waitReg → ∃ x, i = .ldVxK x) ∧
    (t.draws ≠ s.draws → ∃ x kk, i = .rnd x kk)

/-- R20, R22: a general register changes only in an instruction that names it as a destination, writes it as the flag, or loads it;
in particular no other instruction writes VF as a side effect. -/
def Obligations.WritersOfGeneralRegisters : Prop :=
  ∀ (i : Instr) (s t : State) (r : Nibble), exec i s = .next t → t.readV r ≠ s.readV r → mayWriteReg i r = true

/-- R24: every instruction but return, jumps, call and the six skips leaves `PC` at its address plus 2. -/
def Obligations.PcMovesOnlyByControlTransfer : Prop :=
  ∀ (i : Instr) (s t : State), exec i s = .next t → t.pc ≠ s.pc → transfersControl i = true

/-- R202: no step changes what only the host changes: `KEY`, `SPEED` and the scheduler baseline. -/
def Obligations.StepKeepsHostState : Prop :=
  ∀ s t : State, step s = .next t → State.SameHostState s t

/-- R53, R94, R198: an instruction that raises a fault has no other effect, and records its own word (the spec's own D7, D13; assumption
log 9). -/
def Obligations.FaultingInstructionHasNoOtherEffect : Prop :=
  ∀ (i : Instr) (s t : State), exec i s = .next t → t.fault ≠ s.fault →
    ∃ kind, t = { s with fault := some ⟨kind, encode i⟩ }

/-- R166: a program cannot read `ST`, `SPEED` or the scheduler baseline: from two states that differ only there, a step does the
same to everything else. -/
def Obligations.ProgramCannotSeeSoundSpeedOrClock : Prop :=
  ∀ s s' t : State, State.SameToProgram s s' → step s = .next t →
    ∃ t', step s' = .next t' ∧ State.SameToProgram t t'

/-- The counter `draws` is the model's own and no state of the block (assumption log 4): no instruction but Cxkk, whose byte it
selects, does anything that depends on it or changes it. -/
def Obligations.DrawsReachOnlyRandomBytes : Prop :=
  ∀ (i : Instr) (s t : State) (d : Nat), (∀ x kk, i ≠ .rnd x kk) → exec i s = .next t →
    t.draws = s.draws ∧ exec i { s with draws := d } = .next { t with draws := d }
end

