-- ==== Sys2Proof/Laws/Decode.lean ====
section
/-! SUPPORT. The fields of an assembled word (30_encoding.md R71, R72), a word put together again from its fields, and the
disjointness of the opcode rows (R74). -/

namespace Sys2Proof

/-! ## The bits of an assembled word -/

theorem getLsbD_A (f : Nibble) (nnn : Addr) (k : Nat) :
    BitVec.getLsbD (f ++ nnn : Word) k = if k < 12 then nnn.getLsbD k else f.getLsbD (k - 12) :=
  BitVec.getLsbD_append

theorem getLsbD_XK (f x : Nibble) (kk : Byte) (k : Nat) :
    BitVec.getLsbD (f ++ x ++ kk : Word) k =
      if k < 8 then kk.getLsbD k else if k - 8 < 4 then x.getLsbD (k - 8) else f.getLsbD (k - 8 - 4) :=
  BitVec.getLsbD_append.trans (by rw [BitVec.getLsbD_append])

theorem getLsbD_XYN (f x y n : Nibble) (k : Nat) :
    BitVec.getLsbD (f ++ x ++ y ++ n : Word) k =
      if k < 4 then n.getLsbD k else if k - 4 < 4 then y.getLsbD (k - 4)
      else if k - 4 - 4 < 4 then x.getLsbD (k - 4 - 4) else f.getLsbD (k - 4 - 4 - 4) :=
  BitVec.getLsbD_append.trans (by rw [BitVec.getLsbD_append, BitVec.getLsbD_append])

/-! ## Fields of format A, `f ++ nnn` (R72) -/

theorem opFamily_A (f : Nibble) (nnn : Addr) : opFamily (f ++ nnn) = f := by
  ext k hk; simp [opFamily, getLsbD_A, BitVec.getLsbD_eq_getElem hk]

theorem opNnn_A (f : Nibble) (nnn : Addr) : opNnn (f ++ nnn) = nnn := by
  ext k hk; simp [opNnn, getLsbD_A, hk]

/-! ## Fields of formats XK and X, `f ++ x ++ kk` (R72) -/

theorem opFamily_XK (f x : Nibble) (kk : Byte) : opFamily (f ++ x ++ kk) = f := by
  ext k hk
  have h1 : ¬ 12 + k < 8 := by omega
  have h2 : ¬ 12 + k - 8 < 4 := by omega
  have h3 : 12 + k - 8 - 4 = k := by omega
  simp only [opFamily, BitVec.getElem_extractLsb', getLsbD_XK, h1, h2, h3, if_false, BitVec.getLsbD_eq_getElem hk]

theorem opX_XK (f x : Nibble) (kk : Byte) : opX (f ++ x ++ kk) = x := by
  ext k hk; simp [opX, getLsbD_XK, hk]

theorem opKk_XK (f x : Nibble) (kk : Byte) : opKk (f ++ x ++ kk) = kk := by
  ext k hk; simp [opKk, getLsbD_XK, hk]

/-! ## Fields of formats XY and XYN, `f ++ x ++ y ++ n` (R72) -/

theorem opFamily_XYN (f x y n : Nibble) : opFamily (f ++ x ++ y ++ n) = f := by
  ext k hk
  have h1 : ¬ 12 + k < 4 := by omega
  have h2 : ¬ 12 + k - 4 < 4 := by omega
  have h3 : ¬ 12 + k - 4 - 4 < 4 := by omega
  have h4 : 12 + k - 4 - 4 - 4 = k := by omega
  simp only [opFamily, BitVec.getElem_extractLsb', getLsbD_XYN, h1, h2, h3, h4, if_false, BitVec.getLsbD_eq_getElem hk]

theorem opX_XYN (f x y n : Nibble) : opX (f ++ x ++ y ++ n) = x := by
  ext k hk
  have h1 : ¬ 8 + k < 4 := by omega
  have h2 : ¬ 8 + k - 4 < 4 := by omega
  have h3 : 8 + k - 4 - 4 = k := by omega
  simp only [opX, BitVec.getElem_extractLsb', getLsbD_XYN, h1, h2, h3, hk, if_false, if_true, BitVec.getLsbD_eq_getElem hk]

theorem opY_XYN (f x y n : Nibble) : opY (f ++ x ++ y ++ n) = y := by
  ext k hk; simp [opY, getLsbD_XYN, hk]

theorem opN_XYN (f x y n : Nibble) : opN (f ++ x ++ y ++ n) = n := by
  ext k hk; simp [opN, getLsbD_XYN, hk]

/-! ## A word is its fields (R71) -/

theorem word_eq_A (op : Word) : op = opFamily op ++ opNnn op := by
  refine BitVec.eq_of_getLsbD_eq fun k hk => ?_
  rw [getLsbD_A]
  by_cases h : k < 12
  · simp [opNnn, h]
  · have h1 : 12 + (k - 12) = k := by omega
    have h2 : k - 12 < 4 := by omega
    simp [opFamily, h, h1, h2]

theorem word_eq_XK (op : Word) : op = opFamily op ++ opX op ++ opKk op := by
  refine BitVec.eq_of_getLsbD_eq fun k hk => ?_
  rw [getLsbD_XK]
  by_cases h : k < 8
  · simp [opKk, h]
  · by_cases h' : k - 8 < 4
    · have h1 : 8 + (k - 8) = k := by omega
      simp [opX, h, h', h1]
    · have h1 : 12 + (k - 8 - 4) = k := by omega
      have h2 : k - 8 - 4 < 4 := by omega
      simp [opFamily, h, h', h1, h2]

theorem word_eq_XYN (op : Word) : op = opFamily op ++ opX op ++ opY op ++ opN op := by
  refine BitVec.eq_of_getLsbD_eq fun k hk => ?_
  rw [getLsbD_XYN]
  by_cases h : k < 4
  · simp [opN, h]
  · by_cases h' : k - 4 < 4
    · have h1 : 4 + (k - 4) = k := by omega
      simp [opY, h, h', h1]
    · by_cases h'' : k - 4 - 4 < 4
      · have h1 : 8 + (k - 4 - 4) = k := by omega
        simp [opX, h, h', h'', h1]
      · have h1 : 12 + (k - 4 - 4 - 4) = k := by omega
        have h2 : k - 4 - 4 - 4 < 4 := by omega
        simp [opFamily, h, h', h'', h1, h2]

/-! ## Bytes of a word (R54) -/

theorem getLsbD_wordOfBytes (hi lo : Byte) (k : Nat) :
    (wordOfBytes hi lo).getLsbD k = if k < 8 then lo.getLsbD k else hi.getLsbD (k - 8) :=
  BitVec.getLsbD_append

theorem wordOfBytes_bytes (op : Word) : wordOfBytes (highByte op) (lowByte op) = op := by
  refine BitVec.eq_of_getLsbD_eq fun k hk => ?_
  rw [getLsbD_wordOfBytes]
  by_cases h : k < 8
  · simp [lowByte, h]
  · have h1 : 8 + (k - 8) = k := by omega
    have h2 : k - 8 < 8 := by omega
    simp [highByte, h, h1, h2]

/-! ## The opcode map (R74: "no word matches two") -/

/-- Two rows differ in a bit that both fix, so no word matches both. -/
theorem opcodeRows_pairwise_disjoint :
    opcodeRows.Pairwise fun r r' => r.pattern &&& r'.mask ≠ r'.pattern &&& r.mask := by decide

/-- Rows whose common fixed bits differ share no word. -/
theorem OpcodeRow.not_both (r r' : OpcodeRow) (h : r.pattern &&& r'.mask ≠ r'.pattern &&& r.mask) (op : Word)
    (hr : r.matchesWord op = true) : r'.matchesWord op = false := by
  by_contra hc
  simp only [Bool.not_eq_false] at hc
  simp only [OpcodeRow.matchesWord, beq_iff_eq] at hr hc
  apply h
  rw [← hr, ← hc, BitVec.and_assoc, BitVec.and_assoc, BitVec.and_comm r.mask]

end Sys2Proof
end

