-- ==== Sys2Proof/Laws/State.lean ====
section
/-! SUPPORT. One lemma per field per update of the state, each true by rfl, so that no later proof unfolds a record update. -/

namespace Sys2Proof.Machine

variable (s : State)

/-! ## `State.writeV` -/

@[simp] theorem State.writeV_mem (x : Nibble) (b : Byte) : (s.writeV x b).mem = s.mem := rfl
@[simp] theorem State.writeV_v (x : Nibble) (b : Byte) : (s.writeV x b).v = s.v.set x.toNat b := rfl
@[simp] theorem State.writeV_i (x : Nibble) (b : Byte) : (s.writeV x b).i = s.i := rfl
@[simp] theorem State.writeV_pc (x : Nibble) (b : Byte) : (s.writeV x b).pc = s.pc := rfl
@[simp] theorem State.writeV_stack (x : Nibble) (b : Byte) : (s.writeV x b).stack = s.stack := rfl
@[simp] theorem State.writeV_sp (x : Nibble) (b : Byte) : (s.writeV x b).sp = s.sp := rfl
@[simp] theorem State.writeV_dt (x : Nibble) (b : Byte) : (s.writeV x b).dt = s.dt := rfl
@[simp] theorem State.writeV_st (x : Nibble) (b : Byte) : (s.writeV x b).st = s.st := rfl
@[simp] theorem State.writeV_fb (x : Nibble) (b : Byte) : (s.writeV x b).fb = s.fb := rfl
@[simp] theorem State.writeV_key (x : Nibble) (b : Byte) : (s.writeV x b).key = s.key := rfl
@[simp] theorem State.writeV_waiting (x : Nibble) (b : Byte) : (s.writeV x b).waiting = s.waiting := rfl
@[simp] theorem State.writeV_waitReg (x : Nibble) (b : Byte) : (s.writeV x b).waitReg = s.waitReg := rfl
@[simp] theorem State.writeV_fault (x : Nibble) (b : Byte) : (s.writeV x b).fault = s.fault := rfl
@[simp] theorem State.writeV_speed (x : Nibble) (b : Byte) : (s.writeV x b).speed = s.speed := rfl
@[simp] theorem State.writeV_hasBaseline (x : Nibble) (b : Byte) : (s.writeV x b).hasBaseline = s.hasBaseline := rfl
@[simp] theorem State.writeV_lastTime (x : Nibble) (b : Byte) : (s.writeV x b).lastTime = s.lastTime := rfl
@[simp] theorem State.writeV_draws (x : Nibble) (b : Byte) : (s.writeV x b).draws = s.draws := rfl

/-! ## `State.writeFlagThenResult` -/

@[simp] theorem State.writeFlagThenResult_mem (x : Nibble) (f b : Byte) : (s.writeFlagThenResult x f b).mem = s.mem := rfl
@[simp] theorem State.writeFlagThenResult_v (x : Nibble) (f b : Byte) : (s.writeFlagThenResult x f b).v = (s.v.set vf.toNat f).set x.toNat b := rfl
@[simp] theorem State.writeFlagThenResult_i (x : Nibble) (f b : Byte) : (s.writeFlagThenResult x f b).i = s.i := rfl
@[simp] theorem State.writeFlagThenResult_pc (x : Nibble) (f b : Byte) : (s.writeFlagThenResult x f b).pc = s.pc := rfl
@[simp] theorem State.writeFlagThenResult_stack (x : Nibble) (f b : Byte) : (s.writeFlagThenResult x f b).stack = s.stack := rfl
@[simp] theorem State.writeFlagThenResult_sp (x : Nibble) (f b : Byte) : (s.writeFlagThenResult x f b).sp = s.sp := rfl
@[simp] theorem State.writeFlagThenResult_dt (x : Nibble) (f b : Byte) : (s.writeFlagThenResult x f b).dt = s.dt := rfl
@[simp] theorem State.writeFlagThenResult_st (x : Nibble) (f b : Byte) : (s.writeFlagThenResult x f b).st = s.st := rfl
@[simp] theorem State.writeFlagThenResult_fb (x : Nibble) (f b : Byte) : (s.writeFlagThenResult x f b).fb = s.fb := rfl
@[simp] theorem State.writeFlagThenResult_key (x : Nibble) (f b : Byte) : (s.writeFlagThenResult x f b).key = s.key := rfl
@[simp] theorem State.writeFlagThenResult_waiting (x : Nibble) (f b : Byte) : (s.writeFlagThenResult x f b).waiting = s.waiting := rfl
@[simp] theorem State.writeFlagThenResult_waitReg (x : Nibble) (f b : Byte) : (s.writeFlagThenResult x f b).waitReg = s.waitReg := rfl
@[simp] theorem State.writeFlagThenResult_fault (x : Nibble) (f b : Byte) : (s.writeFlagThenResult x f b).fault = s.fault := rfl
@[simp] theorem State.writeFlagThenResult_speed (x : Nibble) (f b : Byte) : (s.writeFlagThenResult x f b).speed = s.speed := rfl
@[simp] theorem State.writeFlagThenResult_hasBaseline (x : Nibble) (f b : Byte) : (s.writeFlagThenResult x f b).hasBaseline = s.hasBaseline := rfl
@[simp] theorem State.writeFlagThenResult_lastTime (x : Nibble) (f b : Byte) : (s.writeFlagThenResult x f b).lastTime = s.lastTime := rfl
@[simp] theorem State.writeFlagThenResult_draws (x : Nibble) (f b : Byte) : (s.writeFlagThenResult x f b).draws = s.draws := rfl

/-! ## `State.loadFirstRegs` -/

@[simp] theorem State.loadFirstRegs_mem (bs : List Byte) : (s.loadFirstRegs bs).mem = s.mem := rfl
@[simp] theorem State.loadFirstRegs_v (bs : List Byte) : (s.loadFirstRegs bs).v = Vector.ofFn fun k => bs.getD k.val s.v[k] := rfl
@[simp] theorem State.loadFirstRegs_i (bs : List Byte) : (s.loadFirstRegs bs).i = s.i := rfl
@[simp] theorem State.loadFirstRegs_pc (bs : List Byte) : (s.loadFirstRegs bs).pc = s.pc := rfl
@[simp] theorem State.loadFirstRegs_stack (bs : List Byte) : (s.loadFirstRegs bs).stack = s.stack := rfl
@[simp] theorem State.loadFirstRegs_sp (bs : List Byte) : (s.loadFirstRegs bs).sp = s.sp := rfl
@[simp] theorem State.loadFirstRegs_dt (bs : List Byte) : (s.loadFirstRegs bs).dt = s.dt := rfl
@[simp] theorem State.loadFirstRegs_st (bs : List Byte) : (s.loadFirstRegs bs).st = s.st := rfl
@[simp] theorem State.loadFirstRegs_fb (bs : List Byte) : (s.loadFirstRegs bs).fb = s.fb := rfl
@[simp] theorem State.loadFirstRegs_key (bs : List Byte) : (s.loadFirstRegs bs).key = s.key := rfl
@[simp] theorem State.loadFirstRegs_waiting (bs : List Byte) : (s.loadFirstRegs bs).waiting = s.waiting := rfl
@[simp] theorem State.loadFirstRegs_waitReg (bs : List Byte) : (s.loadFirstRegs bs).waitReg = s.waitReg := rfl
@[simp] theorem State.loadFirstRegs_fault (bs : List Byte) : (s.loadFirstRegs bs).fault = s.fault := rfl
@[simp] theorem State.loadFirstRegs_speed (bs : List Byte) : (s.loadFirstRegs bs).speed = s.speed := rfl
@[simp] theorem State.loadFirstRegs_hasBaseline (bs : List Byte) : (s.loadFirstRegs bs).hasBaseline = s.hasBaseline := rfl
@[simp] theorem State.loadFirstRegs_lastTime (bs : List Byte) : (s.loadFirstRegs bs).lastTime = s.lastTime := rfl
@[simp] theorem State.loadFirstRegs_draws (bs : List Byte) : (s.loadFirstRegs bs).draws = s.draws := rfl

/-! ## `State.writeI` -/

@[simp] theorem State.writeI_mem (a : Word) : (s.writeI a).mem = s.mem := rfl
@[simp] theorem State.writeI_v (a : Word) : (s.writeI a).v = s.v := rfl
@[simp] theorem State.writeI_i (a : Word) : (s.writeI a).i = a := rfl
@[simp] theorem State.writeI_pc (a : Word) : (s.writeI a).pc = s.pc := rfl
@[simp] theorem State.writeI_stack (a : Word) : (s.writeI a).stack = s.stack := rfl
@[simp] theorem State.writeI_sp (a : Word) : (s.writeI a).sp = s.sp := rfl
@[simp] theorem State.writeI_dt (a : Word) : (s.writeI a).dt = s.dt := rfl
@[simp] theorem State.writeI_st (a : Word) : (s.writeI a).st = s.st := rfl
@[simp] theorem State.writeI_fb (a : Word) : (s.writeI a).fb = s.fb := rfl
@[simp] theorem State.writeI_key (a : Word) : (s.writeI a).key = s.key := rfl
@[simp] theorem State.writeI_waiting (a : Word) : (s.writeI a).waiting = s.waiting := rfl
@[simp] theorem State.writeI_waitReg (a : Word) : (s.writeI a).waitReg = s.waitReg := rfl
@[simp] theorem State.writeI_fault (a : Word) : (s.writeI a).fault = s.fault := rfl
@[simp] theorem State.writeI_speed (a : Word) : (s.writeI a).speed = s.speed := rfl
@[simp] theorem State.writeI_hasBaseline (a : Word) : (s.writeI a).hasBaseline = s.hasBaseline := rfl
@[simp] theorem State.writeI_lastTime (a : Word) : (s.writeI a).lastTime = s.lastTime := rfl
@[simp] theorem State.writeI_draws (a : Word) : (s.writeI a).draws = s.draws := rfl

/-! ## `State.writePc` -/

@[simp] theorem State.writePc_mem (a : Word) : (s.writePc a).mem = s.mem := rfl
@[simp] theorem State.writePc_v (a : Word) : (s.writePc a).v = s.v := rfl
@[simp] theorem State.writePc_i (a : Word) : (s.writePc a).i = s.i := rfl
@[simp] theorem State.writePc_pc (a : Word) : (s.writePc a).pc = a := rfl
@[simp] theorem State.writePc_stack (a : Word) : (s.writePc a).stack = s.stack := rfl
@[simp] theorem State.writePc_sp (a : Word) : (s.writePc a).sp = s.sp := rfl
@[simp] theorem State.writePc_dt (a : Word) : (s.writePc a).dt = s.dt := rfl
@[simp] theorem State.writePc_st (a : Word) : (s.writePc a).st = s.st := rfl
@[simp] theorem State.writePc_fb (a : Word) : (s.writePc a).fb = s.fb := rfl
@[simp] theorem State.writePc_key (a : Word) : (s.writePc a).key = s.key := rfl
@[simp] theorem State.writePc_waiting (a : Word) : (s.writePc a).waiting = s.waiting := rfl
@[simp] theorem State.writePc_waitReg (a : Word) : (s.writePc a).waitReg = s.waitReg := rfl
@[simp] theorem State.writePc_fault (a : Word) : (s.writePc a).fault = s.fault := rfl
@[simp] theorem State.writePc_speed (a : Word) : (s.writePc a).speed = s.speed := rfl
@[simp] theorem State.writePc_hasBaseline (a : Word) : (s.writePc a).hasBaseline = s.hasBaseline := rfl
@[simp] theorem State.writePc_lastTime (a : Word) : (s.writePc a).lastTime = s.lastTime := rfl
@[simp] theorem State.writePc_draws (a : Word) : (s.writePc a).draws = s.draws := rfl

/-! ## `State.advancePc` -/

@[simp] theorem State.advancePc_mem : (s.advancePc).mem = s.mem := rfl
@[simp] theorem State.advancePc_v : (s.advancePc).v = s.v := rfl
@[simp] theorem State.advancePc_i : (s.advancePc).i = s.i := rfl
@[simp] theorem State.advancePc_pc : (s.advancePc).pc = s.pc + 2 := rfl
@[simp] theorem State.advancePc_stack : (s.advancePc).stack = s.stack := rfl
@[simp] theorem State.advancePc_sp : (s.advancePc).sp = s.sp := rfl
@[simp] theorem State.advancePc_dt : (s.advancePc).dt = s.dt := rfl
@[simp] theorem State.advancePc_st : (s.advancePc).st = s.st := rfl
@[simp] theorem State.advancePc_fb : (s.advancePc).fb = s.fb := rfl
@[simp] theorem State.advancePc_key : (s.advancePc).key = s.key := rfl
@[simp] theorem State.advancePc_waiting : (s.advancePc).waiting = s.waiting := rfl
@[simp] theorem State.advancePc_waitReg : (s.advancePc).waitReg = s.waitReg := rfl
@[simp] theorem State.advancePc_fault : (s.advancePc).fault = s.fault := rfl
@[simp] theorem State.advancePc_speed : (s.advancePc).speed = s.speed := rfl
@[simp] theorem State.advancePc_hasBaseline : (s.advancePc).hasBaseline = s.hasBaseline := rfl
@[simp] theorem State.advancePc_lastTime : (s.advancePc).lastTime = s.lastTime := rfl
@[simp] theorem State.advancePc_draws : (s.advancePc).draws = s.draws := rfl

/-! ## `State.raise` -/

@[simp] theorem State.raise_mem (k : FaultKind) (w : Word) : (s.raise k w).mem = s.mem := rfl
@[simp] theorem State.raise_v (k : FaultKind) (w : Word) : (s.raise k w).v = s.v := rfl
@[simp] theorem State.raise_i (k : FaultKind) (w : Word) : (s.raise k w).i = s.i := rfl
@[simp] theorem State.raise_pc (k : FaultKind) (w : Word) : (s.raise k w).pc = s.pc := rfl
@[simp] theorem State.raise_stack (k : FaultKind) (w : Word) : (s.raise k w).stack = s.stack := rfl
@[simp] theorem State.raise_sp (k : FaultKind) (w : Word) : (s.raise k w).sp = s.sp := rfl
@[simp] theorem State.raise_dt (k : FaultKind) (w : Word) : (s.raise k w).dt = s.dt := rfl
@[simp] theorem State.raise_st (k : FaultKind) (w : Word) : (s.raise k w).st = s.st := rfl
@[simp] theorem State.raise_fb (k : FaultKind) (w : Word) : (s.raise k w).fb = s.fb := rfl
@[simp] theorem State.raise_key (k : FaultKind) (w : Word) : (s.raise k w).key = s.key := rfl
@[simp] theorem State.raise_waiting (k : FaultKind) (w : Word) : (s.raise k w).waiting = s.waiting := rfl
@[simp] theorem State.raise_waitReg (k : FaultKind) (w : Word) : (s.raise k w).waitReg = s.waitReg := rfl
@[simp] theorem State.raise_fault (k : FaultKind) (w : Word) : (s.raise k w).fault = some ⟨k, w⟩ := rfl
@[simp] theorem State.raise_speed (k : FaultKind) (w : Word) : (s.raise k w).speed = s.speed := rfl
@[simp] theorem State.raise_hasBaseline (k : FaultKind) (w : Word) : (s.raise k w).hasBaseline = s.hasBaseline := rfl
@[simp] theorem State.raise_lastTime (k : FaultKind) (w : Word) : (s.raise k w).lastTime = s.lastTime := rfl
@[simp] theorem State.raise_draws (k : FaultKind) (w : Word) : (s.raise k w).draws = s.draws := rfl

/-! ## `State.clearScreen` -/

@[simp] theorem State.clearScreen_mem : (s.clearScreen).mem = s.mem := rfl
@[simp] theorem State.clearScreen_v : (s.clearScreen).v = s.v := rfl
@[simp] theorem State.clearScreen_i : (s.clearScreen).i = s.i := rfl
@[simp] theorem State.clearScreen_pc : (s.clearScreen).pc = s.pc := rfl
@[simp] theorem State.clearScreen_stack : (s.clearScreen).stack = s.stack := rfl
@[simp] theorem State.clearScreen_sp : (s.clearScreen).sp = s.sp := rfl
@[simp] theorem State.clearScreen_dt : (s.clearScreen).dt = s.dt := rfl
@[simp] theorem State.clearScreen_st : (s.clearScreen).st = s.st := rfl
@[simp] theorem State.clearScreen_fb : (s.clearScreen).fb = blankScreen := rfl
@[simp] theorem State.clearScreen_key : (s.clearScreen).key = s.key := rfl
@[simp] theorem State.clearScreen_waiting : (s.clearScreen).waiting = s.waiting := rfl
@[simp] theorem State.clearScreen_waitReg : (s.clearScreen).waitReg = s.waitReg := rfl
@[simp] theorem State.clearScreen_fault : (s.clearScreen).fault = s.fault := rfl
@[simp] theorem State.clearScreen_speed : (s.clearScreen).speed = s.speed := rfl
@[simp] theorem State.clearScreen_hasBaseline : (s.clearScreen).hasBaseline = s.hasBaseline := rfl
@[simp] theorem State.clearScreen_lastTime : (s.clearScreen).lastTime = s.lastTime := rfl
@[simp] theorem State.clearScreen_draws : (s.clearScreen).draws = s.draws := rfl

/-! ## `State.afterDraw` -/

@[simp] theorem State.afterDraw_mem (d : Framebuffer × Bool) : (s.afterDraw d).mem = s.mem := rfl
@[simp] theorem State.afterDraw_v (d : Framebuffer × Bool) : (s.afterDraw d).v = s.v.set vf.toNat (collisionFlag d.2) := rfl
@[simp] theorem State.afterDraw_i (d : Framebuffer × Bool) : (s.afterDraw d).i = s.i := rfl
@[simp] theorem State.afterDraw_pc (d : Framebuffer × Bool) : (s.afterDraw d).pc = s.pc := rfl
@[simp] theorem State.afterDraw_stack (d : Framebuffer × Bool) : (s.afterDraw d).stack = s.stack := rfl
@[simp] theorem State.afterDraw_sp (d : Framebuffer × Bool) : (s.afterDraw d).sp = s.sp := rfl
@[simp] theorem State.afterDraw_dt (d : Framebuffer × Bool) : (s.afterDraw d).dt = s.dt := rfl
@[simp] theorem State.afterDraw_st (d : Framebuffer × Bool) : (s.afterDraw d).st = s.st := rfl
@[simp] theorem State.afterDraw_fb (d : Framebuffer × Bool) : (s.afterDraw d).fb = d.1 := rfl
@[simp] theorem State.afterDraw_key (d : Framebuffer × Bool) : (s.afterDraw d).key = s.key := rfl
@[simp] theorem State.afterDraw_waiting (d : Framebuffer × Bool) : (s.afterDraw d).waiting = s.waiting := rfl
@[simp] theorem State.afterDraw_waitReg (d : Framebuffer × Bool) : (s.afterDraw d).waitReg = s.waitReg := rfl
@[simp] theorem State.afterDraw_fault (d : Framebuffer × Bool) : (s.afterDraw d).fault = s.fault := rfl
@[simp] theorem State.afterDraw_speed (d : Framebuffer × Bool) : (s.afterDraw d).speed = s.speed := rfl
@[simp] theorem State.afterDraw_hasBaseline (d : Framebuffer × Bool) : (s.afterDraw d).hasBaseline = s.hasBaseline := rfl
@[simp] theorem State.afterDraw_lastTime (d : Framebuffer × Bool) : (s.afterDraw d).lastTime = s.lastTime := rfl
@[simp] theorem State.afterDraw_draws (d : Framebuffer × Bool) : (s.afterDraw d).draws = s.draws := rfl

/-! ## `State.setSpeed` -/

@[simp] theorem State.setSpeed_mem (n : Nat) : (s.setSpeed n).mem = s.mem := rfl
@[simp] theorem State.setSpeed_v (n : Nat) : (s.setSpeed n).v = s.v := rfl
@[simp] theorem State.setSpeed_i (n : Nat) : (s.setSpeed n).i = s.i := rfl
@[simp] theorem State.setSpeed_pc (n : Nat) : (s.setSpeed n).pc = s.pc := rfl
@[simp] theorem State.setSpeed_stack (n : Nat) : (s.setSpeed n).stack = s.stack := rfl
@[simp] theorem State.setSpeed_sp (n : Nat) : (s.setSpeed n).sp = s.sp := rfl
@[simp] theorem State.setSpeed_dt (n : Nat) : (s.setSpeed n).dt = s.dt := rfl
@[simp] theorem State.setSpeed_st (n : Nat) : (s.setSpeed n).st = s.st := rfl
@[simp] theorem State.setSpeed_fb (n : Nat) : (s.setSpeed n).fb = s.fb := rfl
@[simp] theorem State.setSpeed_key (n : Nat) : (s.setSpeed n).key = s.key := rfl
@[simp] theorem State.setSpeed_waiting (n : Nat) : (s.setSpeed n).waiting = s.waiting := rfl
@[simp] theorem State.setSpeed_waitReg (n : Nat) : (s.setSpeed n).waitReg = s.waitReg := rfl
@[simp] theorem State.setSpeed_fault (n : Nat) : (s.setSpeed n).fault = s.fault := rfl
@[simp] theorem State.setSpeed_speed (n : Nat) : (s.setSpeed n).speed = n := rfl
@[simp] theorem State.setSpeed_hasBaseline (n : Nat) : (s.setSpeed n).hasBaseline = s.hasBaseline := rfl
@[simp] theorem State.setSpeed_lastTime (n : Nat) : (s.setSpeed n).lastTime = s.lastTime := rfl
@[simp] theorem State.setSpeed_draws (n : Nat) : (s.setSpeed n).draws = s.draws := rfl

/-! ## `State.release` -/

@[simp] theorem State.release_mem (k : Nibble) : (s.release k).mem = s.mem := rfl
@[simp] theorem State.release_v (k : Nibble) : (s.release k).v = s.v := rfl
@[simp] theorem State.release_i (k : Nibble) : (s.release k).i = s.i := rfl
@[simp] theorem State.release_pc (k : Nibble) : (s.release k).pc = s.pc := rfl
@[simp] theorem State.release_stack (k : Nibble) : (s.release k).stack = s.stack := rfl
@[simp] theorem State.release_sp (k : Nibble) : (s.release k).sp = s.sp := rfl
@[simp] theorem State.release_dt (k : Nibble) : (s.release k).dt = s.dt := rfl
@[simp] theorem State.release_st (k : Nibble) : (s.release k).st = s.st := rfl
@[simp] theorem State.release_fb (k : Nibble) : (s.release k).fb = s.fb := rfl
@[simp] theorem State.release_key (k : Nibble) : (s.release k).key = s.key.set k.toNat false := rfl
@[simp] theorem State.release_waiting (k : Nibble) : (s.release k).waiting = s.waiting := rfl
@[simp] theorem State.release_waitReg (k : Nibble) : (s.release k).waitReg = s.waitReg := rfl
@[simp] theorem State.release_fault (k : Nibble) : (s.release k).fault = s.fault := rfl
@[simp] theorem State.release_speed (k : Nibble) : (s.release k).speed = s.speed := rfl
@[simp] theorem State.release_hasBaseline (k : Nibble) : (s.release k).hasBaseline = s.hasBaseline := rfl
@[simp] theorem State.release_lastTime (k : Nibble) : (s.release k).lastTime = s.lastTime := rfl
@[simp] theorem State.release_draws (k : Nibble) : (s.release k).draws = s.draws := rfl

/-! ## `State.tick` -/

@[simp] theorem State.tick_mem : (s.tick).mem = s.mem := rfl
@[simp] theorem State.tick_v : (s.tick).v = s.v := rfl
@[simp] theorem State.tick_i : (s.tick).i = s.i := rfl
@[simp] theorem State.tick_pc : (s.tick).pc = s.pc := rfl
@[simp] theorem State.tick_stack : (s.tick).stack = s.stack := rfl
@[simp] theorem State.tick_sp : (s.tick).sp = s.sp := rfl
@[simp] theorem State.tick_dt : (s.tick).dt = countDown s.dt := rfl
@[simp] theorem State.tick_st : (s.tick).st = countDown s.st := rfl
@[simp] theorem State.tick_fb : (s.tick).fb = s.fb := rfl
@[simp] theorem State.tick_key : (s.tick).key = s.key := rfl
@[simp] theorem State.tick_waiting : (s.tick).waiting = s.waiting := rfl
@[simp] theorem State.tick_waitReg : (s.tick).waitReg = s.waitReg := rfl
@[simp] theorem State.tick_fault : (s.tick).fault = s.fault := rfl
@[simp] theorem State.tick_speed : (s.tick).speed = s.speed := rfl
@[simp] theorem State.tick_hasBaseline : (s.tick).hasBaseline = s.hasBaseline := rfl
@[simp] theorem State.tick_lastTime : (s.tick).lastTime = s.lastTime := rfl
@[simp] theorem State.tick_draws : (s.tick).draws = s.draws := rfl

/-! ## `State.skipIf`: only `pc` depends on the condition -/

@[simp] theorem State.skipIf_mem (c : Bool) : (s.skipIf c).mem = s.mem := by cases c <;> rfl
@[simp] theorem State.skipIf_v (c : Bool) : (s.skipIf c).v = s.v := by cases c <;> rfl
@[simp] theorem State.skipIf_i (c : Bool) : (s.skipIf c).i = s.i := by cases c <;> rfl
@[simp] theorem State.skipIf_pc (c : Bool) : (s.skipIf c).pc = if c then s.pc + 2 else s.pc := by cases c <;> rfl
@[simp] theorem State.skipIf_stack (c : Bool) : (s.skipIf c).stack = s.stack := by cases c <;> rfl
@[simp] theorem State.skipIf_sp (c : Bool) : (s.skipIf c).sp = s.sp := by cases c <;> rfl
@[simp] theorem State.skipIf_dt (c : Bool) : (s.skipIf c).dt = s.dt := by cases c <;> rfl
@[simp] theorem State.skipIf_st (c : Bool) : (s.skipIf c).st = s.st := by cases c <;> rfl
@[simp] theorem State.skipIf_fb (c : Bool) : (s.skipIf c).fb = s.fb := by cases c <;> rfl
@[simp] theorem State.skipIf_key (c : Bool) : (s.skipIf c).key = s.key := by cases c <;> rfl
@[simp] theorem State.skipIf_waiting (c : Bool) : (s.skipIf c).waiting = s.waiting := by cases c <;> rfl
@[simp] theorem State.skipIf_waitReg (c : Bool) : (s.skipIf c).waitReg = s.waitReg := by cases c <;> rfl
@[simp] theorem State.skipIf_fault (c : Bool) : (s.skipIf c).fault = s.fault := by cases c <;> rfl
@[simp] theorem State.skipIf_speed (c : Bool) : (s.skipIf c).speed = s.speed := by cases c <;> rfl
@[simp] theorem State.skipIf_hasBaseline (c : Bool) : (s.skipIf c).hasBaseline = s.hasBaseline := by cases c <;> rfl
@[simp] theorem State.skipIf_lastTime (c : Bool) : (s.skipIf c).lastTime = s.lastTime := by cases c <;> rfl
@[simp] theorem State.skipIf_draws (c : Bool) : (s.skipIf c).draws = s.draws := by cases c <;> rfl

/-! ## The block's own state (R20) beside the model's counter -/

/-- A random byte consumed leaves the block's state as it was (R35, R180). -/
@[simp] theorem State.rand_toBlockState : s.rand.2.toBlockState = s.toBlockState := rfl

/-- An ADVANCE's baseline is all of the block's state it writes before its ticks (R174). -/
@[simp] theorem State.withBaseline_toBlockState (now : Time) :
    (s.withBaseline now).toBlockState = { s.toBlockState with hasBaseline := true, lastTime := now } := rfl

end Sys2Proof.Machine
end

