-- ==== Sys2Proof/Laws/Registers.lean ====
section
/-! SUPPORT. What a register reads as after each operation that writes registers (10_state.md R21, 42_load_alu.md R133,
43_index_memory.md R145). -/

namespace Sys2Proof.Machine

theorem nibble_toNat_inj (x y : Nibble) : x.toNat = y.toNat ↔ x = y := BitVec.toNat_inj

/-- A register written reads back, every other register is unchanged (R21: "no register aliases another"). -/
theorem State.readV_writeV (s : State) (x : Nibble) (b : Byte) (r : Nibble) :
    (s.writeV x b).readV r = if r = x then b else s.readV r := by
  unfold State.readV State.writeV
  by_cases h : r = x
  · subst h; simp
  · have : x.toNat ≠ r.toNat := fun e => h (BitVec.eq_of_toNat_eq e.symm)
    simp [h, this]

/-- The flag first, the result second: when `x = 15` the result stays (R133). -/
theorem State.readV_writeFlagThenResult (s : State) (x : Nibble) (f b : Byte) (r : Nibble) :
    (s.writeFlagThenResult x f b).readV r = if r = x then b else if r = 15 then f else s.readV r := by
  unfold State.writeFlagThenResult
  rw [State.readV_writeV, State.readV_writeV]
  rfl

/-- A register load writes the registers below the number of bytes and no other (R145). -/
theorem State.readV_loadFirstRegs (s : State) (bs : List Byte) (r : Nibble) :
    (s.loadFirstRegs bs).readV r = bs.getD r.toNat (s.readV r) := by
  simp [State.readV, State.loadFirstRegs]

/-- Two states with equal reads have equal register files. -/
theorem State.v_ext (s t : State) (h : ∀ r, s.readV r = t.readV r) : s.v = t.v := by
  refine Vector.ext fun k hk => ?_
  have := h (BitVec.ofNat 4 k)
  have hk' : k % 16 = k := Nat.mod_eq_of_lt hk
  simpa [State.readV, hk'] using this

/-- A dump lists `x + 1` registers (R144). -/
theorem State.firstRegs_length (s : State) (x : Nibble) : (s.firstRegs x).length = x.toNat + 1 := by
  have := x.isLt
  simp [State.firstRegs]; omega

/-- The dump's byte `k` is `V[k]` (R144). -/
theorem State.firstRegs_getD (s : State) (x r : Nibble) (h : r.toNat ≤ x.toNat) (d : Byte) :
    (s.firstRegs x).getD r.toNat d = s.readV r := by
  have := x.isLt
  have hr := r.isLt
  have hlt : r.toNat < x.toNat + 1 := by omega
  simp [State.firstRegs, List.getD, hlt, State.readV, Vector.getElem?_eq_getElem hr]

end Sys2Proof.Machine
end

