-- ==== Sys2Proof/Laws/Graphics.lean ====
section
/-! SUPPORT. Pixels: a toggle changes its own pixel and no other, a blank screen is unlit, equal pixels make equal
framebuffers (44_graphics.md R150 to R153). -/

namespace Sys2Proof.Machine

/-- A toggle flips its pixel and leaves every other (R152). -/
theorem Framebuffer.pixel_toggle (fb : Framebuffer) (x x' : BitVec 6) (y y' : BitVec 5) :
    (fb.toggle x y).pixel x' y' = if x' = x ∧ y' = y then !fb.pixel x y else fb.pixel x' y' := by
  unfold Framebuffer.toggle Framebuffer.pixel
  by_cases hy : y' = y
  · subst hy
    by_cases hx : x' = x
    · subst hx; simp
    · have : x.toNat ≠ x'.toNat := fun e => hx (BitVec.eq_of_toNat_eq e.symm)
      simp [hx, this]
  · have : y.toNat ≠ y'.toNat := fun e => hy (BitVec.eq_of_toNat_eq e.symm)
    simp [hy, this]

/-- Every pixel of the blank screen is unlit (R150). -/
theorem blankScreen_pixel (x : BitVec 6) (y : BitVec 5) : blankScreen.pixel x y = false := by
  simp [blankScreen, Framebuffer.pixel]

/-- Framebuffers with equal pixels are equal. -/
theorem Framebuffer.ext_pixel (fb fb' : Framebuffer) (h : ∀ x y, fb.pixel x y = fb'.pixel x y) : fb = fb' := by
  refine Vector.ext fun r hr => Vector.ext fun c hc => ?_
  have := h (BitVec.ofNat 6 c) (BitVec.ofNat 5 r)
  have hr' : r % 32 = r := Nat.mod_eq_of_lt hr
  have hc' : c % 64 = c := Nat.mod_eq_of_lt hc
  simpa [Framebuffer.pixel, hr', hc'] using this

/-- A sprite of no rows draws nothing and cannot collide (R152). -/
theorem drawSprite_nil (fb : Framebuffer) (vx vy : Nat) : drawSprite fb [] vx vy = (fb, false) := rfl

/-- The pixels the loops of R152 toggle, in the order they are toggled. -/
def spriteTargets (rows : List Byte) (vx vy : Nat) : List (BitVec 6 × BitVec 5) :=
  (List.range rows.length).flatMap fun r =>
    ((List.range 8).filter (spriteBit rows r)).map fun c => (wrapX (vx + c), wrapY (vy + r))

/-- The nested loops of R152 toggle the targets one after another. -/
theorem drawSprite_eq_foldl (fb : Framebuffer) (rows : List Byte) (vx vy : Nat) :
    drawSprite fb rows vx vy = (spriteTargets rows vx vy).foldl (fun acc p => togglePixel acc p.1 p.2) (fb, false) := by
  simp only [drawSprite, spriteTargets, List.foldl_flatMap, List.foldl_map, List.foldl_filter]
  rfl

/-- A pixel is a target exactly when a 1 bit of the sprite lands on it (R152). -/
theorem mem_spriteTargets (rows : List Byte) (vx vy : Nat) (p : BitVec 6 × BitVec 5) :
    p ∈ spriteTargets rows vx vy ↔ ∃ r c, r < rows.length ∧ c < 8 ∧ (rows.getD r 0).getLsbD (7 - c) = true ∧
      p.1.toNat = (vx + c) % 64 ∧ p.2.toNat = (vy + r) % 32 := by
  simp only [spriteTargets, List.mem_flatMap, List.mem_map, List.mem_filter, List.mem_range]
  constructor
  · rintro ⟨r, hr, c, ⟨hc, hb⟩, rfl⟩
    exact ⟨r, c, hr, hc, hb, BitVec.toNat_ofNat .., BitVec.toNat_ofNat ..⟩
  · rintro ⟨r, c, hr, hc, hb, h1, h2⟩
    exact ⟨r, hr, c, ⟨hc, hb⟩, Prod.ext (BitVec.eq_of_toNat_eq (by simp [wrapX, h1]))
      (BitVec.eq_of_toNat_eq (by simp [wrapY, h2]))⟩

/-- No pixel is a target twice: 8 columns are distinct modulo 64, and 32 rows modulo 32. -/
theorem nodup_spriteTargets (rows : List Byte) (vx vy : Nat) (h : rows.length ≤ 32) :
    (spriteTargets rows vx vy).Nodup := by
  rw [spriteTargets, List.nodup_flatMap]
  constructor
  · intro r _
    refine ((List.nodup_range).filter _).map_on ?_
    intro c hc d hd e
    simp only [List.mem_filter, List.mem_range] at hc hd
    have := congrArg (fun p => p.1.toNat) e
    simp [wrapX] at this
    omega
  · refine (List.nodup_range).imp_of_mem ?_
    intro r r' hr hr' hne
    simp only [List.mem_range] at hr hr'
    intro p hp hp'
    simp only [List.mem_map, List.mem_filter] at hp hp'
    obtain ⟨c, -, rfl⟩ := hp
    obtain ⟨c', -, e⟩ := hp'
    have := congrArg (fun p => p.2.toNat) e
    simp [wrapY] at this
    omega

/-- Toggling a list of distinct pixels flips each of them once, and collides where one was lit. -/
theorem foldl_togglePixel (L : List (BitVec 6 × BitVec 5)) (hL : L.Nodup) (acc : Framebuffer × Bool) :
    (∀ x y, (L.foldl (fun acc p => togglePixel acc p.1 p.2) acc).1.pixel x y =
      if (x, y) ∈ L then !acc.1.pixel x y else acc.1.pixel x y) ∧
    (L.foldl (fun acc p => togglePixel acc p.1 p.2) acc).2 = (acc.2 || L.any fun p => acc.1.pixel p.1 p.2) := by
  induction L generalizing acc with
  | nil => simp
  | cons q L ih =>
    obtain ⟨hq, hL⟩ := List.nodup_cons.1 hL
    obtain ⟨i1, i2⟩ := ih hL (togglePixel acc q.1 q.2)
    constructor
    · intro x y
      rw [List.foldl_cons, i1]
      simp only [togglePixel, Framebuffer.pixel_toggle, List.mem_cons]
      by_cases h : (x, y) = q
      · subst h; simp [hq]
      · have : ¬(x = q.1 ∧ y = q.2) := fun e => h (Prod.ext e.1 e.2)
        simp [h, this]
    · rw [List.foldl_cons, i2]
      simp only [togglePixel, List.any_cons, Bool.or_assoc]
      congr 2
      refine Bool.eq_iff_iff.2 ?_
      simp only [List.any_eq_true]
      refine exists_congr fun p => and_congr_right fun hp => ?_
      have : ¬(p.1 = q.1 ∧ p.2 = q.2) := fun e => hq (Prod.ext e.1 e.2 ▸ hp)
      rw [Framebuffer.pixel_toggle, if_neg this]

/-- What a draw of at most 32 rows does to every pixel: it toggles exactly its targets (R152). -/
theorem drawSprite_pixel (fb : Framebuffer) (rows : List Byte) (vx vy : Nat) (h : rows.length ≤ 32) (x : BitVec 6)
    (y : BitVec 5) :
    (drawSprite fb rows vx vy).1.pixel x y =
      if (x, y) ∈ spriteTargets rows vx vy then !fb.pixel x y else fb.pixel x y := by
  rw [drawSprite_eq_foldl]
  exact (foldl_togglePixel _ (nodup_spriteTargets rows vx vy h) (fb, false)).1 x y

/-- The collision of a draw of at most 32 rows: one of its targets was lit (R152). -/
theorem drawSprite_collision (fb : Framebuffer) (rows : List Byte) (vx vy : Nat) (h : rows.length ≤ 32) :
    (drawSprite fb rows vx vy).2 = true ↔ ∃ p ∈ spriteTargets rows vx vy, fb.pixel p.1 p.2 = true := by
  rw [drawSprite_eq_foldl, (foldl_togglePixel _ (nodup_spriteTargets rows vx vy h) (fb, false)).2]
  simp

/-- A draw writes VF, last, and no other register (R152). -/
theorem State.readV_afterDraw (s : State) (drawn : Framebuffer × Bool) (r : Nibble) :
    (s.afterDraw drawn).readV r = if r = 15 then collisionFlag drawn.2 else s.readV r := by
  rw [State.afterDraw, State.readV_writeV]
  rfl

end Sys2Proof.Machine
end

