-- ==== Sys2Proof/Laws/Memory.lean ====
section
/-! SUPPORT. The laws of memory: a read after a write, every other address left alone, and the canonical form kept by every
memory operation (20_memory.md R50, R52, R57). The read laws hold for every list of cells, canonical or not. -/

namespace Sys2Proof.Machine

/-! ## Read after write -/

theorem Memory.read_erase (m : Memory) (a a' : Nat) :
    (m.erase a).read a' = if a' = a then unlistedByte a else m.read a' := by
  induction m with
  | nil => by_cases h : a' = a <;> simp [Memory.erase, Memory.read, h]
  | cons c rest ih =>
    by_cases hc : c.1 = a
    · by_cases h : a' = a
      · subst h; simp [Memory.erase, hc, ih]
      · have hne : ¬ a = a' := fun e => h e.symm
        simp [Memory.erase, Memory.read, hc, ih, h, hne]
    · by_cases h : c.1 = a'
      · simp [Memory.erase, Memory.read, hc, ← h]
      · simp [Memory.erase, Memory.read, hc, h, ih]

theorem Memory.read_insertCell (m : Memory) (a : Nat) (b : Byte) (hm : ∀ c ∈ m, c.1 ≠ a) (a' : Nat) :
    (m.insertCell a b).read a' = if a' = a then b else m.read a' := by
  induction m with
  | nil =>
    by_cases h : a' = a
    · simp [Memory.insertCell, Memory.read, h]
    · have hne : ¬ a = a' := fun e => h e.symm
      simp [Memory.insertCell, Memory.read, h, hne]
  | cons c rest ih =>
    have hc : c.1 ≠ a := hm c (by simp)
    have ih' := ih fun d hd => hm d (by simp [hd])
    by_cases hlt : c.1 < a
    · by_cases h : c.1 = a'
      · simp [Memory.insertCell, Memory.read, hlt, ← h, hc]
      · simp [Memory.insertCell, Memory.read, hlt, h, ih']
    · by_cases h : a' = a
      · simp [Memory.insertCell, Memory.read, hlt, h]
      · have hne : ¬ a = a' := fun e => h e.symm
        simp [Memory.insertCell, Memory.read, hlt, h, hne]

theorem Memory.not_mem_erase (m : Memory) (a : Nat) : ∀ c ∈ m.erase a, c.1 ≠ a := by
  induction m with
  | nil => simp [Memory.erase]
  | cons c rest ih =>
    by_cases hc : c.1 = a
    · simpa [Memory.erase, hc] using ih
    · simpa [Memory.erase, hc] using ih

/-- A read after a write gives the byte written, and every other address reads as before (R57). -/
theorem Memory.read_write (m : Memory) (a : Nat) (b : Byte) (a' : Nat) :
    (m.write a b).read a' = if a' = a then b else m.read a' := by
  unfold Memory.write
  split
  · rename_i hb; simp [Memory.read_erase, hb]
  · rw [Memory.read_insertCell _ _ _ (m.not_mem_erase a), Memory.read_erase]
    split <;> rfl

/-- What `n` bytes written at `a` do to every address (R52). -/
theorem Memory.read_writeBytes (m : Memory) (a : Nat) (bs : List Byte) (a' : Nat) :
    (m.writeBytes a bs).read a' = if a ≤ a' ∧ a' < a + bs.length then bs.getD (a' - a) 0 else m.read a' := by
  induction bs generalizing m a with
  | nil => simp only [Memory.writeBytes, List.length_nil, Nat.add_zero]; rw [if_neg (by omega)]
  | cons b rest ih =>
    rw [Memory.writeBytes, ih, Memory.read_write]
    by_cases h0 : a' = a
    · subst h0; simp
    · by_cases h1 : a + 1 ≤ a' ∧ a' < a + 1 + rest.length
      · have hs : a' - a = (a' - (a + 1)) + 1 := by omega
        have h2 : a ≤ a' ∧ a' < a + (b :: rest).length := by simp; omega
        rw [if_pos h1, if_pos h2, hs]; simp
      · have h2 : ¬(a ≤ a' ∧ a' < a + (b :: rest).length) := by simp; omega
        rw [if_neg h1, if_neg h2, if_neg h0]

/-! ## The canonical form -/

/-- The canonical form as a list of facts: addresses strictly rising, each cell inside memory and not at its unlisted
value. -/
theorem Memory.wf_cons (c : Host.Cell) (rest : Memory) :
    Memory.wf (c :: rest) = true ↔
      (∀ d ∈ rest, c.1 < d.1) ∧ c.1 < 4096 ∧ c.2 ≠ unlistedByte c.1 ∧ Memory.wf rest = true := by
  simp [Memory.wf, and_assoc]

theorem Memory.mem_of_mem_erase (m : Memory) (a : Nat) (c : Host.Cell) (hc : c ∈ m.erase a) : c ∈ m := by
  induction m with
  | nil => simp [Memory.erase] at hc
  | cons d rest ih =>
    by_cases hd : d.1 = a
    · simp only [Memory.erase, hd, if_true] at hc; exact .tail _ (ih hc)
    · simp only [Memory.erase, hd, if_false, List.mem_cons] at hc
      rcases hc with rfl | hc
      · exact .head _
      · exact .tail _ (ih hc)

theorem Memory.wf_erase (m : Memory) (a : Nat) (h : m.wf = true) : (m.erase a).wf = true := by
  induction m with
  | nil => rfl
  | cons c rest ih =>
    obtain ⟨h1, h2, h3, h4⟩ := (Memory.wf_cons c rest).1 h
    by_cases hc : c.1 = a
    · simpa [Memory.erase, hc] using ih h4
    · simp only [Memory.erase, hc, if_false]
      exact (Memory.wf_cons _ _).2 ⟨fun d hd => h1 d (Memory.mem_of_mem_erase rest a d hd), h2, h3, ih h4⟩

theorem Memory.mem_insertCell (m : Memory) (a : Nat) (b : Byte) (c : Host.Cell) (hc : c ∈ m.insertCell a b) :
    c = (a, b) ∨ c ∈ m := by
  induction m with
  | nil => simpa [Memory.insertCell] using hc
  | cons d rest ih =>
    by_cases hd : d.1 < a
    · simp only [Memory.insertCell, hd, if_true, List.mem_cons] at hc
      rcases hc with rfl | hc
      · exact .inr (.head _)
      · exact (ih hc).imp id (.tail _)
    · simpa [Memory.insertCell, hd] using hc

theorem Memory.wf_insertCell (m : Memory) (a : Nat) (b : Byte) (h : m.wf = true) (hm : ∀ c ∈ m, c.1 ≠ a) (ha : a < 4096)
    (hb : b ≠ unlistedByte a) : (m.insertCell a b).wf = true := by
  induction m with
  | nil => exact (Memory.wf_cons _ _).2 ⟨by simp, ha, hb, rfl⟩
  | cons c rest ih =>
    obtain ⟨h1, h2, h3, h4⟩ := (Memory.wf_cons c rest).1 h
    have hc : c.1 ≠ a := hm c (.head _)
    by_cases hlt : c.1 < a
    · simp only [Memory.insertCell, hlt, if_true]
      refine (Memory.wf_cons _ _).2 ⟨fun d hd => ?_, h2, h3, ih h4 fun d hd => hm d (.tail _ hd)⟩
      rcases Memory.mem_insertCell rest a b d hd with rfl | hd
      · exact hlt
      · exact h1 d hd
    · simp only [Memory.insertCell, hlt, if_false]
      refine (Memory.wf_cons _ _).2 ⟨fun d hd => ?_, ha, hb, h⟩
      have hca : a < c.1 := by omega
      rcases List.mem_cons.1 hd with rfl | hd
      · exact hca
      · exact hca.trans (h1 d hd)

/-- A write inside memory keeps the canonical form. -/
theorem Memory.wf_write (m : Memory) (a : Nat) (b : Byte) (h : m.wf = true) (ha : a < 4096) : (m.write a b).wf = true := by
  unfold Memory.write
  split
  · exact m.wf_erase a h
  · rename_i hb; exact (m.erase a).wf_insertCell a b (m.wf_erase a h) (m.not_mem_erase a) ha hb

/-- A run of bytes written inside memory keeps the canonical form. -/
theorem Memory.wf_writeBytes (m : Memory) (a : Nat) (bs : List Byte) (h : m.wf = true) (ha : a + bs.length ≤ 4096) :
    (m.writeBytes a bs).wf = true := by
  induction bs generalizing m a with
  | nil => exact h
  | cons b rest ih =>
    simp only [List.length_cons] at ha
    exact ih (m.write a b) (a + 1) (m.wf_write a b h (by omega)) (by omega)

/-- The reset memory lists nothing and is canonical. -/
theorem Memory.wf_reset : State.reset.mem.wf = true := rfl

/-- Canonical memories that read alike are equal data. -/
theorem Memory.wf_ext (m m' : Memory) (h : m.wf = true) (h' : m'.wf = true) (hr : ∀ a, m.read a = m'.read a) : m = m' := by
  induction m generalizing m' with
  | nil =>
    cases m' with
    | nil => rfl
    | cons c rest =>
      obtain ⟨-, -, h3, -⟩ := (Memory.wf_cons c rest).1 h'
      have := hr c.1
      simp [Memory.read] at this
      exact absurd this.symm h3
  | cons c rest ih =>
    obtain ⟨h1, h2, h3, h4⟩ := (Memory.wf_cons c rest).1 h
    have below (l : Memory) (a : Nat) (hl : ∀ d ∈ l, a < d.1) : l.read a = unlistedByte a := by
      induction l with
      | nil => rfl
      | cons d l ihl =>
        have := hl d (.head _)
        rw [Memory.read, if_neg (by omega)]
        exact ihl fun e he => hl e (.tail _ he)
    cases m' with
    | nil =>
      have := hr c.1
      simp [Memory.read] at this
      exact absurd this h3
    | cons d rest' =>
      obtain ⟨g1, g2, g3, g4⟩ := (Memory.wf_cons d rest').1 h'
      rcases Nat.lt_trichotomy c.1 d.1 with hlt | heq | hgt
      · have hb : Memory.read (d :: rest') c.1 = unlistedByte c.1 := below _ _ fun e he => by
          rcases List.mem_cons.1 he with rfl | he
          · exact hlt
          · exact hlt.trans (g1 e he)
        have := hr c.1
        rw [hb] at this
        simp [Memory.read] at this
        exact absurd this h3
      · have hv : c.2 = d.2 := by
          have := hr c.1
          simpa [Memory.read, heq] using this
        have hcd : c = d := Prod.ext heq hv
        subst hcd
        congr 1
        refine ih rest' h4 g4 fun a => ?_
        by_cases ha : c.1 = a
        · subst ha; rw [below rest _ h1, below rest' _ g1]
        · have := hr a
          simpa [Memory.read, ha] using this
      · have hb : Memory.read (c :: rest) d.1 = unlistedByte d.1 := below _ _ fun e he => by
          rcases List.mem_cons.1 he with rfl | he
          · exact hgt
          · exact hgt.trans (h1 e he)
        have := hr d.1
        rw [hb] at this
        simp [Memory.read] at this
        exact absurd this.symm g3

end Sys2Proof.Machine
end

