-- ==== Sys2Proof/Laws/Ops.lean ====
section
/-! SUPPORT. One lemma per shared operation of Machine/Ops.lean that says everything it can do: memory accesses (20_memory.md
R52), the fault-or-go-on operation (R53), fetch (40_step_cycle.md R91), push and pop (10_state.md R26), keys, skips. -/

namespace Sys2Proof.Machine

/-! ## Memory accesses (R52) -/

theorem outOfRange_iff (a : Word) (n : Nat) : outOfRange a n = true ↔ 0 < n ∧ 4096 < a.toNat + n := by
  simp only [outOfRange, decide_eq_true_eq]; omega

/-- `MemRead` in range. -/
theorem State.memRead_inRange (s : State) (a : Word) (n : Nat) (h : n = 0 ∨ a.toNat + n ≤ 4096) :
    s.memRead a n = some ((List.range n).map fun k => s.mem.read (a.toNat + k)) := by
  have : ¬ outOfRange a n = true := by rw [outOfRange_iff]; omega
  simp [State.memRead, this]

/-- `MemRead` out of range. -/
theorem State.memRead_outOfRange (s : State) (a : Word) (n : Nat) (h0 : 0 < n) (h : 4096 < a.toNat + n) :
    s.memRead a n = none := by
  simp [State.memRead, (outOfRange_iff a n).2 ⟨h0, h⟩]

/-- `MemWrite` in range. -/
theorem State.memWrite_inRange (s : State) (a : Word) (bs : List Byte) (h : bs.length = 0 ∨ a.toNat + bs.length ≤ 4096) :
    s.memWrite a bs = some { s with mem := s.mem.writeBytes a.toNat bs } := by
  have : ¬ outOfRange a bs.length = true := by rw [outOfRange_iff]; omega
  simp [State.memWrite, this]

/-- `MemWrite` out of range. -/
theorem State.memWrite_outOfRange (s : State) (a : Word) (bs : List Byte) (h0 : 0 < bs.length)
    (h : 4096 < a.toNat + bs.length) : s.memWrite a bs = none := by
  simp [State.memWrite, (outOfRange_iff a _).2 ⟨h0, h⟩]

/-- Everything `MemWrite` can answer. -/
theorem State.memWrite_cases (s : State) (a : Word) (bs : List Byte) :
    (s.memWrite a bs = none ∧ 0 < bs.length ∧ 4096 < a.toNat + bs.length) ∨
      (s.memWrite a bs = some { s with mem := s.mem.writeBytes a.toNat bs } ∧
        (bs.length = 0 ∨ a.toNat + bs.length ≤ 4096)) := by
  by_cases h : 0 < bs.length ∧ 4096 < a.toNat + bs.length
  · exact .inl ⟨s.memWrite_outOfRange a bs h.1 h.2, h⟩
  · have : bs.length = 0 ∨ a.toNat + bs.length ≤ 4096 := by omega
    exact .inr ⟨s.memWrite_inRange a bs this, this⟩

/-- Everything an instruction that accesses memory through `I` can do (R53, R192). -/
theorem orAddressFault_cases {α : Type} (access : Option α) (op : Word) (s : State) (goOn : α → State) :
    (access = none ∧ orAddressFault access op s goOn = s.raise .addressOutOfRange op) ∨
      ∃ r, access = some r ∧ orAddressFault access op s goOn = goOn r := by
  cases access with
  | none => exact .inl ⟨rfl, rfl⟩
  | some r => exact .inr ⟨r, rfl, rfl⟩

@[simp] theorem orAddressFault_none {α : Type} (op : Word) (s : State) (goOn : α → State) :
    orAddressFault none op s goOn = s.raise .addressOutOfRange op := rfl

@[simp] theorem orAddressFault_some {α : Type} (r : α) (op : Word) (s : State) (goOn : α → State) :
    orAddressFault (some r) op s goOn = goOn r := rfl

/-! ## Fetch and gates (R90, R91) -/

theorem State.fetch_inRange (s : State) (h : s.pc.toNat ≤ 4094) :
    s.fetch = some (wordOfBytes (s.mem.read s.pc.toNat) (s.mem.read (s.pc.toNat + 1))) := by
  rw [State.fetch, s.memRead_inRange s.pc 2 (by omega)]
  rfl

theorem State.fetch_outOfRange (s : State) (h : 4095 ≤ s.pc.toNat) : s.fetch = none := by
  rw [State.fetch, s.memRead_outOfRange s.pc 2 (by omega) (by omega)]

theorem State.slotOpen_iff (s : State) : s.slotOpen = true ↔ s.fault = none ∧ s.waiting = false := by
  simp [State.slotOpen]

/-! ## Call stack (R25, R26) -/

/-- Everything a push can do. -/
theorem State.pushPc_of_lt (s : State) (h : s.sp.toNat < 16) :
    s.pushPc = some { s with stack := s.stack.set s.sp.toNat s.pc, sp := s.sp + 1 } := by
  simp [State.pushPc, h]

theorem State.pushPc_of_ge (s : State) (h : 16 ≤ s.sp.toNat) : s.pushPc = none := by
  simp [State.pushPc]; omega

/-- Everything a pop can do. -/
theorem State.popPc_of_legal (s : State) (h : 1 ≤ s.sp.toNat ∧ s.sp.toNat ≤ 16) :
    s.popPc = some { s with sp := s.sp - 1, pc := s.stack[s.sp.toNat - 1]'(by omega) } := by
  simp [State.popPc, h]

theorem State.popPc_of_illegal (s : State) (h : s.sp.toNat = 0 ∨ 16 < s.sp.toNat) : s.popPc = none := by
  have : ¬(1 ≤ s.sp.toNat ∧ s.sp.toNat ≤ 16) := by omega
  simp [State.popPc, this]

/-! ## Keys, skips, flags -/

theorem State.keyAt_legal (s : State) (k : Byte) (h : k.toNat ≤ 15) : s.keyAt k = some (s.key[k.toNat]) := by
  have h' : ¬ 15 < k.toNat := by omega
  have hk : k.toNat % 16 = k.toNat := Nat.mod_eq_of_lt (by omega)
  simp [State.keyAt, h', State.keyDown, hk]

theorem State.keyAt_illegal (s : State) (k : Byte) (h : 15 < k.toNat) : s.keyAt k = none := by
  simp [State.keyAt, h]

theorem State.skipIf_true (s : State) : s.skipIf true = s.advancePc := rfl

theorem State.skipIf_false (s : State) : s.skipIf false = s := rfl

/-- A flag is 1 or 0 (R22). -/
theorem flagByte_toNat (b : Bool) : (flagByte b).toNat = if b then 1 else 0 := by cases b <;> rfl

end Sys2Proof.Machine
end

