-- ==== Sys2Proof/Laws/PerInstr.lean ====
section
/-! SUPPORT. Statements about every instruction as syntax, one lemma per constructor: an instruction's encoded word matches
the row of the opcode map that bears its mnemonic (30_encoding.md R74, R75). -/

namespace Sys2Proof.Laws.EncodeMatchesRow

/-- The word of an instruction matches a row of R75, and that row is the one with the instruction's mnemonic. -/
def Statement (i : Instr) : Prop :=
  ∃ row ∈ opcodeRows, row.mnemonic = mnemonicOf i ∧ row.matchesWord (encode i) = true

/-- A word of format A, masked to its family. -/
theorem mask_A (f : Nibble) (nnn : Addr) : ((f ++ nnn : Word) &&& 0xF000#16) = f ++ 0#12 := by
  refine BitVec.eq_of_getLsbD_eq fun k hk => ?_
  rw [BitVec.getLsbD_and, getLsbD_A, getLsbD_A]
  interval_cases k <;> simp

/-- A word of format XK, masked to its family. -/
theorem mask_XK (f x : Nibble) (kk : Byte) : ((f ++ x ++ kk : Word) &&& 0xF000#16) = f ++ 0#12 := by
  refine BitVec.eq_of_getLsbD_eq fun k hk => ?_
  rw [BitVec.getLsbD_and, getLsbD_XK, getLsbD_A]
  interval_cases k <;> simp

/-- A word of format X, masked to its family and sub-opcode. -/
theorem mask_X (f x : Nibble) (kk : Byte) : ((f ++ x ++ kk : Word) &&& 0xF0FF#16) = f ++ 0#4 ++ kk := by
  refine BitVec.eq_of_getLsbD_eq fun k hk => ?_
  rw [BitVec.getLsbD_and, getLsbD_XK, getLsbD_XK]
  interval_cases k <;> simp

/-- A word of format XY, masked to its family and sub-opcode. -/
theorem mask_XY (f x y n : Nibble) : ((f ++ x ++ y ++ n : Word) &&& 0xF00F#16) = f ++ 0#4 ++ 0#4 ++ n := by
  refine BitVec.eq_of_getLsbD_eq fun k hk => ?_
  rw [BitVec.getLsbD_and, getLsbD_XYN, getLsbD_XYN]
  interval_cases k <;> simp

/-- A word of format XYN, masked to its family. -/
theorem mask_XYN (f x y n : Nibble) : ((f ++ x ++ y ++ n : Word) &&& 0xF000#16) = f ++ 0#12 := by
  refine BitVec.eq_of_getLsbD_eq fun k hk => ?_
  rw [BitVec.getLsbD_and, getLsbD_XYN, getLsbD_A]
  interval_cases k <;> simp

theorem cls : Statement .cls := ⟨⟨"CLS", 0x00E0, 0xFFFF⟩, by decide, rfl, by decide⟩

theorem cls0 : Statement .cls0 := ⟨⟨"CLS0", 0x0000, 0xFFFF⟩, by decide, rfl, by decide⟩

theorem ret : Statement .ret := ⟨⟨"RET", 0x00EE, 0xFFFF⟩, by decide, rfl, by decide⟩

theorem jp (nnn : Addr) : Statement (.jp nnn) :=
  ⟨⟨"JP_nnn", 0x1000, 0xF000⟩, by decide, rfl, beq_iff_eq.2 ((mask_A 0x1 nnn).trans (by decide))⟩

theorem call (nnn : Addr) : Statement (.call nnn) :=
  ⟨⟨"CALL_nnn", 0x2000, 0xF000⟩, by decide, rfl, beq_iff_eq.2 ((mask_A 0x2 nnn).trans (by decide))⟩

theorem seImm (x : Nibble) (kk : Byte) : Statement (.seImm x kk) :=
  ⟨⟨"SE_Vx__kk", 0x3000, 0xF000⟩, by decide, rfl, beq_iff_eq.2 ((mask_XK 0x3 x kk).trans (by decide))⟩

theorem sneImm (x : Nibble) (kk : Byte) : Statement (.sneImm x kk) :=
  ⟨⟨"SNE_Vx__kk", 0x4000, 0xF000⟩, by decide, rfl, beq_iff_eq.2 ((mask_XK 0x4 x kk).trans (by decide))⟩

theorem seReg (x : Nibble) (y : Nibble) : Statement (.seReg x y) :=
  ⟨⟨"SE_Vx__Vy", 0x5000, 0xF00F⟩, by decide, rfl, beq_iff_eq.2 ((mask_XY 0x5 x y 0x0).trans (by decide))⟩

theorem ldImm (x : Nibble) (kk : Byte) : Statement (.ldImm x kk) :=
  ⟨⟨"LD_Vx__kk", 0x6000, 0xF000⟩, by decide, rfl, beq_iff_eq.2 ((mask_XK 0x6 x kk).trans (by decide))⟩

theorem addImm (x : Nibble) (kk : Byte) : Statement (.addImm x kk) :=
  ⟨⟨"ADD_Vx__kk", 0x7000, 0xF000⟩, by decide, rfl, beq_iff_eq.2 ((mask_XK 0x7 x kk).trans (by decide))⟩

theorem ldReg (x : Nibble) (y : Nibble) : Statement (.ldReg x y) :=
  ⟨⟨"LD_Vx__Vy", 0x8000, 0xF00F⟩, by decide, rfl, beq_iff_eq.2 ((mask_XY 0x8 x y 0x0).trans (by decide))⟩

theorem orReg (x : Nibble) (y : Nibble) : Statement (.orReg x y) :=
  ⟨⟨"OR_Vx__Vy", 0x8001, 0xF00F⟩, by decide, rfl, beq_iff_eq.2 ((mask_XY 0x8 x y 0x1).trans (by decide))⟩

theorem andReg (x : Nibble) (y : Nibble) : Statement (.andReg x y) :=
  ⟨⟨"AND_Vx__Vy", 0x8002, 0xF00F⟩, by decide, rfl, beq_iff_eq.2 ((mask_XY 0x8 x y 0x2).trans (by decide))⟩

theorem xorReg (x : Nibble) (y : Nibble) : Statement (.xorReg x y) :=
  ⟨⟨"XOR_Vx__Vy", 0x8003, 0xF00F⟩, by decide, rfl, beq_iff_eq.2 ((mask_XY 0x8 x y 0x3).trans (by decide))⟩

theorem addReg (x : Nibble) (y : Nibble) : Statement (.addReg x y) :=
  ⟨⟨"ADD_Vx__Vy", 0x8004, 0xF00F⟩, by decide, rfl, beq_iff_eq.2 ((mask_XY 0x8 x y 0x4).trans (by decide))⟩

theorem subReg (x : Nibble) (y : Nibble) : Statement (.subReg x y) :=
  ⟨⟨"SUB_Vx__Vy", 0x8005, 0xF00F⟩, by decide, rfl, beq_iff_eq.2 ((mask_XY 0x8 x y 0x5).trans (by decide))⟩

theorem shr (x : Nibble) (y : Nibble) : Statement (.shr x y) :=
  ⟨⟨"SHR_Vx", 0x8006, 0xF00F⟩, by decide, rfl, beq_iff_eq.2 ((mask_XY 0x8 x y 0x6).trans (by decide))⟩

theorem subn (x : Nibble) (y : Nibble) : Statement (.subn x y) :=
  ⟨⟨"SUBN_Vx__Vy", 0x8007, 0xF00F⟩, by decide, rfl, beq_iff_eq.2 ((mask_XY 0x8 x y 0x7).trans (by decide))⟩

theorem shl (x : Nibble) (y : Nibble) : Statement (.shl x y) :=
  ⟨⟨"SHL_Vx", 0x800E, 0xF00F⟩, by decide, rfl, beq_iff_eq.2 ((mask_XY 0x8 x y 0xE).trans (by decide))⟩

theorem sneReg (x : Nibble) (y : Nibble) : Statement (.sneReg x y) :=
  ⟨⟨"SNE_Vx__Vy", 0x9000, 0xF00F⟩, by decide, rfl, beq_iff_eq.2 ((mask_XY 0x9 x y 0x0).trans (by decide))⟩

theorem ldI (nnn : Addr) : Statement (.ldI nnn) :=
  ⟨⟨"LD_I__nnn", 0xA000, 0xF000⟩, by decide, rfl, beq_iff_eq.2 ((mask_A 0xA nnn).trans (by decide))⟩

theorem jpV0 (nnn : Addr) : Statement (.jpV0 nnn) :=
  ⟨⟨"JP_V0__nnn", 0xB000, 0xF000⟩, by decide, rfl, beq_iff_eq.2 ((mask_A 0xB nnn).trans (by decide))⟩

theorem rnd (x : Nibble) (kk : Byte) : Statement (.rnd x kk) :=
  ⟨⟨"RND_Vx__kk", 0xC000, 0xF000⟩, by decide, rfl, beq_iff_eq.2 ((mask_XK 0xC x kk).trans (by decide))⟩

theorem drw (x : Nibble) (y : Nibble) (n : Nibble) : Statement (.drw x y n) :=
  ⟨⟨"DRW_Vx__Vy__n", 0xD000, 0xF000⟩, by decide, rfl, beq_iff_eq.2 ((mask_XYN 0xD x y n).trans (by decide))⟩

theorem skp (x : Nibble) : Statement (.skp x) :=
  ⟨⟨"SKP_Vx", 0xE09E, 0xF0FF⟩, by decide, rfl, beq_iff_eq.2 ((mask_X 0xE x 0x9E).trans (by decide))⟩

theorem sknp (x : Nibble) : Statement (.sknp x) :=
  ⟨⟨"SKNP_Vx", 0xE0A1, 0xF0FF⟩, by decide, rfl, beq_iff_eq.2 ((mask_X 0xE x 0xA1).trans (by decide))⟩

theorem ldVxDt (x : Nibble) : Statement (.ldVxDt x) :=
  ⟨⟨"LD_Vx__DT", 0xF007, 0xF0FF⟩, by decide, rfl, beq_iff_eq.2 ((mask_X 0xF x 0x07).trans (by decide))⟩

theorem ldVxK (x : Nibble) : Statement (.ldVxK x) :=
  ⟨⟨"LD_Vx__K", 0xF00A, 0xF0FF⟩, by decide, rfl, beq_iff_eq.2 ((mask_X 0xF x 0x0A).trans (by decide))⟩

theorem ldDtVx (x : Nibble) : Statement (.ldDtVx x) :=
  ⟨⟨"LD_DT__Vx", 0xF015, 0xF0FF⟩, by decide, rfl, beq_iff_eq.2 ((mask_X 0xF x 0x15).trans (by decide))⟩

theorem ldStVx (x : Nibble) : Statement (.ldStVx x) :=
  ⟨⟨"LD_ST__Vx", 0xF018, 0xF0FF⟩, by decide, rfl, beq_iff_eq.2 ((mask_X 0xF x 0x18).trans (by decide))⟩

theorem addI (x : Nibble) : Statement (.addI x) :=
  ⟨⟨"ADD_I__Vx", 0xF01E, 0xF0FF⟩, by decide, rfl, beq_iff_eq.2 ((mask_X 0xF x 0x1E).trans (by decide))⟩

theorem ldF (x : Nibble) : Statement (.ldF x) :=
  ⟨⟨"LD_F__Vx", 0xF029, 0xF0FF⟩, by decide, rfl, beq_iff_eq.2 ((mask_X 0xF x 0x29).trans (by decide))⟩

theorem ldB (x : Nibble) : Statement (.ldB x) :=
  ⟨⟨"LD_B__Vx", 0xF033, 0xF0FF⟩, by decide, rfl, beq_iff_eq.2 ((mask_X 0xF x 0x33).trans (by decide))⟩

theorem stRegs (x : Nibble) : Statement (.stRegs x) :=
  ⟨⟨"LD__I___Vx", 0xF055, 0xF0FF⟩, by decide, rfl, beq_iff_eq.2 ((mask_X 0xF x 0x55).trans (by decide))⟩

theorem ldRegs (x : Nibble) : Statement (.ldRegs x) :=
  ⟨⟨"LD_Vx___I", 0xF065, 0xF0FF⟩, by decide, rfl, beq_iff_eq.2 ((mask_X 0xF x 0x65).trans (by decide))⟩

end Sys2Proof.Laws.EncodeMatchesRow
end

