-- ==== Sys2Proof/Laws/Step.lean ====
section
/-! SUPPORT. What one step can do, said once (40_step_cycle.md R90 to R94), and what the host's slots do. -/

namespace Sys2Proof.Machine

/-- Everything a step can answer: a skipped slot, a fetch fault, a decode fault, or the decoded instruction's own answer on
the state whose PC is advanced. -/
theorem step_cases (s : State) :
    (s.slotOpen = false ∧ step s = .next s) ∨
    (s.slotOpen = true ∧ s.fetch = none ∧ step s = .next (s.raise .addressOutOfRange s.pc)) ∨
    (∃ op bad, s.slotOpen = true ∧ s.fetch = some op ∧ decode op = .invalidOpcode bad ∧
      step s = .next (s.advancePc.raise .invalidOpcode bad)) ∨
    (∃ op i, s.slotOpen = true ∧ s.fetch = some op ∧ decode op = .instr i ∧ step s = exec i s.advancePc) := by
  unfold step
  cases ho : s.slotOpen with
  | false => exact .inl ⟨rfl, by simp⟩
  | true =>
    cases hf : s.fetch with
    | none => exact .inr (.inl ⟨rfl, rfl, by simp⟩)
    | some op =>
      cases hd : decode op with
      | invalidOpcode bad => exact .inr (.inr (.inl ⟨op, bad, rfl, rfl, hd, by simp [hd]⟩))
      | instr i => exact .inr (.inr (.inr ⟨op, i, rfl, rfl, hd, by simp [hd]⟩))

/-- A closed slot changes nothing (R90). -/
theorem step_closed (s : State) (h : s.slotOpen = false) : step s = .next s := by simp [step, h]

/-- Two host operations in a row complete exactly when both do, and the outputs are joined (R183). -/
theorem HostResult.andThen_eq_next (first : HostResult) (second : State → HostResult) (u : State) (out : List Output) :
    first.andThen second = .next (u, out) ↔
      ∃ t o₁ o₂, first = .next (t, o₁) ∧ second t = .next (u, o₂) ∧ out = o₁ ++ o₂ := by
  unfold HostResult.andThen
  constructor
  · intro h
    split at h
    · cases h
    · cases h
    · rename_i s o₁
      split at h
      · cases h
      · cases h
      · rename_i t o₂ h₂
        cases h
        exact ⟨s, o₁, o₂, rfl, h₂, rfl⟩
  · rintro ⟨t, o₁, o₂, h₁, h₂, rfl⟩
    simp [h₁, h₂]

/-- A slot completes exactly when its step does, and emits the report of a latch newly set (R181). -/
theorem State.slot_eq_next (s u : State) (out : List Output) :
    s.slot = .next (u, out) ↔ step s = .next u ∧ out = slotReport s u := by
  unfold State.slot
  constructor
  · intro h
    split at h
    · cases h
    · cases h
    · rename_i t ht
      cases h
      exact ⟨ht, rfl⟩
  · rintro ⟨h, rfl⟩
    simp [h]

end Sys2Proof.Machine
end

