-- ==== Sys2Proof/Tests/Slice0.lean ====
section
/-! SUPPORT. Tests. Every expected value comes from spec/95_test_vectors.md (its vector or row is named beside the test) or
is worked by hand from the rule named. One step on a small state each; witnesses for the hypotheses of the obligations at the
end. -/

namespace Sys2Proof.Tests

open Sys2Proof Sys2Proof.Machine

/-! ## Helpers -/

/-- `s` with the listed registers written. -/
def withRegs (s : State) (regs : List (Nibble × Byte)) : State := regs.foldl (fun s p => s.writeV p.1 p.2) s

/-- The reset state with the listed registers. -/
def regs (rs : List (Nibble × Byte)) : State := withRegs State.reset rs

/-- `s` with the listed bytes of memory. -/
def withBytes (s : State) (a : Nat) (bs : List Byte) : State := { s with mem := s.mem.writeBytes a bs }

/-- `s` with the listed pixels toggled. -/
def withLit (s : State) (ps : List (BitVec 6 × BitVec 5)) : State :=
  { s with fb := ps.foldl (fun fb p => fb.toggle p.1 p.2) s.fb }

/-- What `get` reads after one step that runs the word `w` placed at `PC`. -/
def after {α : Type} (w : Nat) (s : State) (get : State → α) : Option α :=
  match step (s.withFetchWord 16 w) with
  | .next t => some (get t)
  | .fault _ => none
  | .refused _ => none

/-- What `get` reads after a host operation, and what the operation emits. -/
def afterHost {α : Type} (op : HostOp) (s : State) (get : State → α) : Option (α × List Output) :=
  match hostStep op s with
  | .next (t, out) => some (get t, out)
  | .fault _ => none
  | .refused _ => none

/-- What `get` reads after an ADVANCE of `n` ticks, and what it emits. -/
def afterTicks {α : Type} (n : Nat) (s : State) (get : State → α) : Option (α × List Output) :=
  match s.advanceBy n with
  | .next (t, out) => some (get t, out)
  | .fault _ => none
  | .refused _ => none

/-- `PC` and `FAULT`. -/
def pcFault (s : State) : Word × Option FaultRecord := (s.pc, s.fault)

/-! ## WellFormed (R171, R78) -/

/-- The one check of WellFormed.lean: 3584 bytes fit, 3585 do not (Q6). -/
theorem test_program_fits : ProgramFits (List.replicate 3584 0xAB) ∧ ¬ ProgramFits (List.replicate 3585 0xAB) := by
  simp only [ProgramFits, List.length_replicate]
  decide

/-! ## Decoding: the words of 95_test_vectors.md section 2, every row -/

theorem test_decode_0_to_2 :
    decode 0x00E0 = .instr .cls ∧ decode 0x0000 = .instr .cls0 ∧ decode 0x00EE = .instr .ret ∧
    decode 0x1ABC = .instr (.jp 0xABC) ∧ decode 0x2ABC = .instr (.call 0xABC) := by decide

theorem test_decode_3_to_7 :
    decode 0x3A7F = .instr (.seImm 0xA 0x7F) ∧ decode 0x4A7F = .instr (.sneImm 0xA 0x7F) ∧
    decode 0x5AB0 = .instr (.seReg 0xA 0xB) ∧ decode 0x6A14 = .instr (.ldImm 0xA 0x14) ∧
    decode 0x7A02 = .instr (.addImm 0xA 0x02) := by decide

theorem test_decode_8 :
    decode 0x8AB0 = .instr (.ldReg 0xA 0xB) ∧ decode 0x8AB1 = .instr (.orReg 0xA 0xB) ∧
    decode 0x8AB2 = .instr (.andReg 0xA 0xB) ∧ decode 0x8AB3 = .instr (.xorReg 0xA 0xB) ∧
    decode 0x8014 = .instr (.addReg 0x0 0x1) ∧ decode 0x8AB5 = .instr (.subReg 0xA 0xB) ∧
    decode 0x8AB6 = .instr (.shr 0xA 0xB) ∧ decode 0x8AB7 = .instr (.subn 0xA 0xB) ∧
    decode 0x8ABE = .instr (.shl 0xA 0xB) := by decide

theorem test_decode_9_to_E :
    decode 0x9AB0 = .instr (.sneReg 0xA 0xB) ∧ decode 0xA2F0 = .instr (.ldI 0x2F0) ∧
    decode 0xB2F0 = .instr (.jpV0 0x2F0) ∧ decode 0xCA0F = .instr (.rnd 0xA 0x0F) ∧
    decode 0xD125 = .instr (.drw 0x1 0x2 0x5) ∧ decode 0xE29E = .instr (.skp 0x2) ∧
    decode 0xE2A1 = .instr (.sknp 0x2) := by decide

theorem test_decode_F :
    decode 0xF307 = .instr (.ldVxDt 0x3) ∧ decode 0xF60A = .instr (.ldVxK 0x6) ∧
    decode 0xF515 = .instr (.ldDtVx 0x5) ∧ decode 0xF518 = .instr (.ldStVx 0x5) ∧
    decode 0xF21E = .instr (.addI 0x2) ∧ decode 0xF029 = .instr (.ldF 0x0) ∧
    decode 0xF333 = .instr (.ldB 0x3) ∧ decode 0xF255 = .instr (.stRegs 0x2) ∧
    decode 0xFF65 = .instr (.ldRegs 0xF) := by decide

/-- V-DEC-1 to V-DEC-9. -/
theorem test_illegal_0_and_8 :
    ([0x0001, 0x00E1, 0x00EF, 0x00FF, 0x0200, 0x0FFF, 0x8AB8, 0x8ABF, 0x8009] : List Word).all
      (fun w => decode w == .invalidOpcode w) = true := by decide

/-- V-DEC-10 to V-DEC-20. -/
theorem test_illegal_E_and_F :
    ([0xE09F, 0xE000, 0xE1A0, 0xF000, 0xF0FF, 0xF100, 0xF154, 0xF175, 0xF185, 0xF030, 0xFFFF] : List Word).all
      (fun w => decode w == .invalidOpcode w) = true := by decide

/-- R76: families 5 and 9 with a low nibble other than 0. -/
theorem test_illegal_5_and_9 :
    ([0x5AB1, 0x5ABF, 0x9AB1, 0x9ABF] : List Word).all (fun w => decode w == .invalidOpcode w) = true := by decide

/-- The byte order of R54: row 4 of section 2, bytes 1A BC. -/
theorem test_byte_order :
    highByte 0x1ABC = 0x1A ∧ lowByte 0x1ABC = 0xBC ∧ wordOfBytes 0x1A 0xBC = 0x1ABC := by decide

theorem test_decodeTableWord :
    decodeTableWord 16 0x8014 = some (.addReg 0 1) ∧ decodeTableWord 16 0x8AB8 = none := by decide

/-- The placed word lies big-endian at 0x200 and nothing else of the reset state has changed. -/
theorem test_withFetchWord :
    (State.reset.withFetchWord 16 0x1ABC) = { State.reset with mem := [(0x200, 0x1A), (0x201, 0xBC)] } := by
  decide +kernel

/-! ## The step cycle (V-ST, V-DEC) -/

/-- V-ST-1. -/
theorem test_last_fetchable_address :
    after 0x6001 { State.reset with pc := 0x0FFE } (fun t => (t.readV 0, pcFault t)) = some (0x01, 0x1000, none) := by
  decide

/-- V-ST-2, V-ST-3: the fetch faults, PC is not advanced. -/
theorem test_fetch_fault :
    step { State.reset with pc := 0x0FFF } =
      .next { State.reset with pc := 0x0FFF, fault := some ⟨.addressOutOfRange, 0x0FFF⟩ } ∧
    step { State.reset with pc := 0x10FE } =
      .next { State.reset with pc := 0x10FE, fault := some ⟨.addressOutOfRange, 0x10FE⟩ } := ⟨rfl, rfl⟩

/-- V-ST-5: an odd PC. -/
theorem test_odd_pc :
    after 0x6A14 { State.reset with pc := 0x0201 } (fun t => (t.readV 0xA, t.pc)) = some (0x14, 0x0203) := by decide

/-- V-DEC-7, V-DEC-20. -/
theorem test_illegal_word_faults :
    after 0x8AB8 State.reset pcFault = some (0x0202, some ⟨.invalidOpcode, 0x8AB8⟩) ∧
    after 0xFFFF State.reset pcFault = some (0x0202, some ⟨.invalidOpcode, 0xFFFF⟩) := by decide

/-! ## Control transfer (V-CF) -/

/-- V-CF-7. -/
theorem test_ret :
    after 0x00EE { State.reset with pc := 0x0300, sp := 1, stack := State.reset.stack.set 0 0x0202 }
      (fun t => (t.pc, t.sp, t.stack[0])) = some (0x0202, 0, 0x0202) := by decide

/-- V-CF-8, V-CF-9. -/
theorem test_ret_bounds :
    after 0x00EE State.reset pcFault = some (0x0202, some ⟨.stackUnderflow, 0x00EE⟩) ∧
    after 0x00EE { State.reset with sp := 16, stack := State.reset.stack.set 15 0x0ABC }
      (fun t => (t.pc, t.sp)) = some (0x0ABC, 15) := by decide

/-- V-CF-1. -/
theorem test_jp : after 0x1234 State.reset (fun t => t.pc) = some 0x0234 := by decide

/-- V-CF-4, V-CF-5. -/
theorem test_call :
    after 0x2300 State.reset (fun t => (t.pc, t.sp, t.stack[0])) = some (0x0300, 1, 0x0202) ∧
    after 0x2300 { State.reset with sp := 15 } (fun t => (t.pc, t.sp, t.stack[15])) = some (0x0300, 16, 0x0202) := by
  decide

/-- V-CF-6. -/
theorem test_call_overflow :
    after 0x2300 { State.reset with sp := 16 } (fun t => (pcFault t, t.sp)) =
      some ((0x0202, some ⟨.stackOverflow, 0x2300⟩), 16) := by decide

/-- V-CF-10, V-CF-11. -/
theorem test_seImm :
    after 0x3342 (regs [(3, 0x42)]) (fun t => t.pc) = some 0x0204 ∧
    after 0x3342 (regs [(3, 0x43)]) (fun t => t.pc) = some 0x0202 := by decide

/-- V-CF-12, V-CF-13. -/
theorem test_sneImm :
    after 0x4342 (regs [(3, 0x42)]) (fun t => t.pc) = some 0x0202 ∧
    after 0x4342 (regs [(3, 0x43)]) (fun t => t.pc) = some 0x0204 := by decide

/-- V-CF-14, V-CF-15. -/
theorem test_seReg :
    after 0x5120 (regs [(1, 7), (2, 7)]) (fun t => t.pc) = some 0x0204 ∧
    after 0x5120 (regs [(1, 7), (2, 8)]) (fun t => t.pc) = some 0x0202 := by decide

/-- R106, by hand: equal does not skip, unequal does. -/
theorem test_sneReg :
    after 0x9120 (regs [(1, 7), (2, 7)]) (fun t => t.pc) = some 0x0202 ∧
    after 0x9120 (regs [(1, 7), (2, 8)]) (fun t => t.pc) = some 0x0204 := by decide

/-- R107, by hand: 0xFFF + 0xFF = 0x10FE, not reduced; the register is V0, not V[F]. -/
theorem test_jpV0 : after 0xBFFF (regs [(0, 0xFF), (15, 0x01)]) (fun t => t.pc) = some 0x10FE := by decide

/-- V-CF-25: a skip from the last instruction. -/
theorem test_skip_past_the_end :
    after 0x3FFF { regs [(15, 0xFF)] with pc := 0x0FFE } pcFault = some (0x1002, none) := by decide

/-! ## Loads and arithmetic (V-ALU): the destination, VF, and in the first test PC -/

/-- V-ALU-1. -/
theorem test_ldImm : after 0x6A14 State.reset (fun t => (t.readV 0xA, t.pc)) = some (0x14, 0x0202) := by decide

/-- V-ALU-3, V-ALU-4. -/
theorem test_addImm :
    after 0x7A02 (regs [(0xA, 0x14), (15, 0x55)]) (fun t => (t.readV 0xA, t.readV 15)) = some (0x16, 0x55) ∧
    after 0x7A02 (regs [(0xA, 0xFF), (15, 0x55)]) (fun t => (t.readV 0xA, t.readV 15)) = some (0x01, 0x55) := by decide

/-- V-ALU-6. -/
theorem test_ldReg :
    after 0x8120 (regs [(1, 0x01), (2, 0xC3)]) (fun t => (t.readV 1, t.readV 2)) = some (0xC3, 0xC3) := by decide

/-- V-ALU-7. -/
theorem test_orReg :
    after 0x8121 (regs [(1, 0xF0), (2, 0x3C), (15, 0x77)]) (fun t => (t.readV 1, t.readV 15)) = some (0xFC, 0x77) := by
  decide

/-- V-ALU-8. -/
theorem test_andReg :
    after 0x8122 (regs [(1, 0xF0), (2, 0x3C), (15, 0x77)]) (fun t => (t.readV 1, t.readV 15)) = some (0x30, 0x77) := by
  decide

/-- V-ALU-9. -/
theorem test_xorReg :
    after 0x8123 (regs [(1, 0xF0), (2, 0x3C), (15, 0x77)]) (fun t => (t.readV 1, t.readV 15)) = some (0xCC, 0x77) := by
  decide

/-- V-ALU-11 (the source's own scenario S9), V-ALU-13. -/
theorem test_addReg :
    after 0x8014 (regs [(0, 0xFF), (1, 0x02)]) (fun t => (t.readV 0, t.readV 1, t.readV 15)) = some (0x01, 0x02, 0x01) ∧
    after 0x8014 (regs [(0, 0xFF), (15, 0x01)]) (fun t => (t.readV 0, t.readV 15)) = some (0xFF, 0x00) := by decide

/-- V-ALU-16, V-ALU-17: VF as destination, VF as second operand. -/
theorem test_addReg_vf :
    after 0x8F14 (regs [(15, 0xF0), (1, 0x20)]) (fun t => t.readV 15) = some 0x10 ∧
    after 0x80F4 (regs [(0, 0x01), (15, 0xFF)]) (fun t => (t.readV 0, t.readV 15)) = some (0x00, 0x01) := by decide

/-- V-ALU-20, V-ALU-21. -/
theorem test_subReg :
    after 0x8125 (regs [(1, 0x03), (2, 0x05), (15, 0x01)]) (fun t => (t.readV 1, t.readV 15)) = some (0xFE, 0x00) ∧
    after 0x8125 (regs [(1, 0x05), (2, 0x05)]) (fun t => (t.readV 1, t.readV 15)) = some (0x00, 0x01) := by decide

/-- V-ALU-23. -/
theorem test_subReg_vf : after 0x8F15 (regs [(15, 0x05), (1, 0x03)]) (fun t => t.readV 15) = some 0x02 := by decide

/-- V-ALU-24, V-ALU-25. -/
theorem test_subn :
    after 0x8127 (regs [(1, 0x03), (2, 0x05)]) (fun t => (t.readV 1, t.readV 15)) = some (0x02, 0x01) ∧
    after 0x8127 (regs [(1, 0x05), (2, 0x03), (15, 0x01)]) (fun t => (t.readV 1, t.readV 15)) = some (0xFE, 0x00) := by
  decide

/-- V-ALU-27, V-ALU-30. -/
theorem test_shr :
    after 0x8126 (regs [(1, 0x05), (2, 0xFF)]) (fun t => (t.readV 1, t.readV 2, t.readV 15)) =
      some (0x02, 0xFF, 0x01) ∧
    after 0x8F06 (regs [(15, 0x05)]) (fun t => t.readV 15) = some 0x02 := by decide

/-- V-ALU-31, V-ALU-33. -/
theorem test_shl :
    after 0x812E (regs [(1, 0x81), (2, 0xFF)]) (fun t => (t.readV 1, t.readV 2, t.readV 15)) =
      some (0x02, 0xFF, 0x01) ∧
    after 0x8F0E (regs [(15, 0xC0)]) (fun t => t.readV 15) = some 0x80 := by decide

/-- V-ALU-34, V-ALU-35: a draw of 0xAB masked with 0xF0 is 0xA0; any draw masked with 0 is 0. -/
theorem test_rnd :
    (∀ s : State, Config.randomByte s.draws = 0xAB → ∃ t, exec (.rnd 0xA 0xF0) s = .next t ∧ t.readV 0xA = 0xA0) ∧
    ∀ s : State, ∃ t, exec (.rnd 0xA 0x00) s = .next t ∧ t.readV 0xA = 0x00 := by
  constructor
  · intro s h
    refine ⟨_, rfl, ?_⟩
    simp [State.readV_writeV, State.rand, h]
  · intro s
    refine ⟨_, rfl, ?_⟩
    simp [State.readV_writeV]

/-! ## Index register and memory (V-IDX) -/

/-- V-IDX-2. -/
theorem test_ldI : after 0xAFFF { State.reset with i := 0x1234 } (fun t => t.i) = some 0x0FFF := by decide

/-- V-IDX-4, V-IDX-5. -/
theorem test_addI :
    after 0xF21E { regs [(2, 0x02), (15, 0x55)] with i := 0xFFFF } (fun t => (t.i, t.readV 15)) = some (0x0001, 0x55) ∧
    after 0xF21E { regs [(2, 0x01)] with i := 0x0FFF } (fun t => t.i) = some 0x1000 := by decide

/-- V-IDX-6, V-IDX-7. -/
theorem test_ldF :
    after 0xF029 (regs [(0, 0x0A)]) (fun t => t.i) = some 0x0032 ∧
    after 0xF029 (regs [(0, 0xFF)]) (fun t => t.i) = some 0x04FB := by decide

/-- V-IDX-12. -/
theorem test_ldB :
    after 0xF333 { regs [(3, 0xC7)] with i := 0x0FFD }
      (fun t => (t.mem.read 0xFFD, t.mem.read 0xFFE, t.mem.read 0xFFF, t.i)) = some (0x01, 0x09, 0x09, 0x0FFD) := by
  decide

/-- V-IDX-13. -/
theorem test_ldB_fault :
    after 0xF333 { regs [(3, 0xC7)] with i := 0x0FFE } (fun t => (pcFault t, t.mem.read 0xFFE)) =
      some ((0x0202, some ⟨.addressOutOfRange, 0xF333⟩), 0x00) := by decide

/-- V-IDX-14. -/
theorem test_stRegs :
    after 0xF255 { regs [(0, 0xAA), (1, 0xBB), (2, 0xCC), (3, 0xDD)] with i := 0x0300 }
      (fun t => (t.mem.read 0x300, t.mem.read 0x301, t.mem.read 0x302, t.mem.read 0x303, t.i)) =
      some (0xAA, 0xBB, 0xCC, 0x00, 0x0300) := by decide

/-- V-IDX-17. -/
theorem test_stRegs_fault :
    after 0xF255 { regs [(0, 0xAA), (1, 0xBB), (2, 0xCC)] with i := 0x0FFE } (fun t => (t.fault, t.mem.read 0xFFE)) =
      some (some ⟨.addressOutOfRange, 0xF255⟩, 0x00) := by decide

/-- V-IDX-20: glyph 0 of the font. -/
theorem test_ldRegs :
    after 0xF265 (regs [(3, 0x77)]) (fun t => (t.readV 0, t.readV 1, t.readV 2, t.readV 3, t.i)) =
      some (0xF0, 0x90, 0x90, 0x77, 0x0000) := by decide

/-- V-IDX-22. -/
theorem test_ldRegs_fault :
    after 0xF165 { regs [(0, 0x01), (1, 0x02)] with i := 0x0FFF } (fun t => (t.fault, t.readV 0, t.readV 1)) =
      some (some ⟨.addressOutOfRange, 0xF165⟩, 0x01, 0x02) := by decide

/-! ## Graphics (V-DRW, V-CLS) -/

/-- V-CLS-1: VF untouched. -/
theorem test_cls :
    after 0x00E0 (withLit (regs [(15, 0x01)]) [(0, 0), (3, 4)])
      (fun t => (t.fb.pixel 0 0, t.fb.pixel 3 4, t.readV 15)) = some (false, false, 0x01) := by decide +kernel

/-- V-CLS-2. -/
theorem test_cls0 :
    after 0x0000 (withLit State.reset [(0, 0), (3, 4)]) (fun t => (t.fb.pixel 0 0, t.fb.pixel 3 4, pcFault t)) =
      some (false, false, 0x0202, none) := by decide +kernel

/-- V-DRW-9. -/
theorem test_drw :
    after 0xD011 { withBytes (withLit State.reset [(1, 0)]) 0x300 [0xC0] with i := 0x0300 }
      (fun t => (t.fb.pixel 0 0, t.fb.pixel 1 0, t.fb.pixel 2 0, t.readV 15)) = some (true, false, false, 0x01) := by
  decide +kernel

/-- V-DRW-11: the last byte of memory, wrapped in both axes' last row. -/
theorem test_drw_wraps :
    after 0xD011 { withBytes (regs [(0, 0x3C), (1, 0x1F)]) 0xFFF [0xFF] with i := 0x0FFF }
      (fun t => [t.fb.pixel 59 31, t.fb.pixel 60 31, t.fb.pixel 63 31, t.fb.pixel 0 31, t.fb.pixel 3 31, t.fb.pixel 4 31,
        t.fb.pixel 0 0]) = some [false, true, true, true, true, false, false] := by decide +kernel

/-! ## Timers and keypad (V-TK) -/

/-- V-TK-6, V-TK-7. -/
theorem test_skp :
    after 0xE29E { regs [(2, 0x0B)] with key := State.reset.key.set 0xB true } (fun t => t.pc) = some 0x0204 ∧
    after 0xE29E { regs [(2, 0x0B)] with key := State.reset.key.set 0xA true } (fun t => t.pc) = some 0x0202 := by decide

/-- V-TK-8: no mask of the key index. -/
theorem test_skp_fault :
    after 0xE29E { regs [(2, 0x10)] with key := State.reset.key.set 0 true } pcFault =
      some (0x0202, some ⟨.keyIndexOutOfRange, 0xE29E⟩) := by decide

/-- V-TK-9, V-TK-10. -/
theorem test_sknp :
    after 0xE2A1 { regs [(2, 0x0B)] with key := State.reset.key.set 0xB true } (fun t => t.pc) = some 0x0202 ∧
    after 0xE2A1 (regs [(2, 0x0B)]) (fun t => t.pc) = some 0x0204 := by decide

/-- V-TK-11. -/
theorem test_sknp_fault :
    after 0xE2A1 (regs [(2, 0xFF)]) pcFault = some (0x0202, some ⟨.keyIndexOutOfRange, 0xE2A1⟩) := by decide

/-- V-TK-1. -/
theorem test_ldVxDt : after 0xF307 { State.reset with dt := 42 } (fun t => (t.readV 3, t.dt)) = some (0x2A, 42) := by decide

/-- V-TK-12. -/
theorem test_ldVxK :
    after 0xF60A { regs [(6, 0x33)] with key := State.reset.key.set 6 true }
      (fun t => (t.waiting, t.waitReg, t.readV 6, t.pc)) = some (true, 6, 0x33, 0x0202) := by decide

/-- V-TK-3, V-TK-4. -/
theorem test_ldDtVx :
    after 0xF515 (regs [(5, 0x3C)]) (fun t => (t.dt, t.st)) = some (60, 0) ∧
    after 0xF515 { State.reset with dt := 9 } (fun t => t.dt) = some 0 := by decide

/-- V-TK-5. -/
theorem test_ldStVx : after 0xF518 (regs [(5, 0x02)]) (fun t => (t.st, t.dt)) = some (2, 0) := by decide

/-! ## Host operations (95_test_vectors.md section 4) -/

/-- Q6, at a small size: the program at 0x200, 0 below it, SPEED kept (R171, R37). -/
theorem test_load :
    afterHost (.load [0x60, 0x01]) { regs [(3, 9)] with speed := 1, dt := 7 }
      (fun t => ([t.mem.read 0x1FF, t.mem.read 0x200, t.mem.read 0x201, t.readV 3, t.dt], t.speed, t.pc)) =
      some (([0x00, 0x60, 0x01, 0, 0], 1, 0x200), []) := by decide

/-- Q3: the PRESS that ends the wait. -/
theorem test_press_ends_the_wait :
    afterHost (.press 3) { State.reset with waiting := true, waitReg := 3, pc := 0x0202 }
      (fun t => (t.readV 3, t.waiting, t.keyDown 3, t.pc)) = some ((0x03, false, true, 0x0202), []) := by decide

/-- Q3: a RELEASE leaves the machine waiting. -/
theorem test_release_keeps_waiting :
    afterHost (.release 3) { State.reset with waiting := true, waitReg := 3, key := State.reset.key.set 3 true }
      (fun t => (t.waiting, t.keyDown 3)) = some ((true, false), []) := by decide

/-- Q1, third and fourth operation, at speed 0: two ticks from `DT = 2`, `ST = 1`; then one tick at 0. -/
theorem test_ticks :
    afterTicks 2 { State.reset with dt := 2, st := 1, speed := 0 } (fun t => (t.dt, t.st)) =
      some ((0, 0), [.soundStop, .soundStop]) ∧
    afterTicks 1 { State.reset with dt := 3, st := 2, speed := 0 } (fun t => (t.dt, t.st)) =
      some ((2, 1), [.soundStart]) := by decide

/-- Q4, first ADVANCE, at speed 2: the report once, the second slot skipped. -/
theorem test_fault_report :
    afterTicks 1 { State.reset.withFetchWord 16 0x8AB8 with speed := 2 } pcFault =
      some ((0x0202, some ⟨.invalidOpcode, 0x8AB8⟩), [.soundStop, .faultReport .invalidOpcode 0x8AB8]) := by decide

/-- R174, by hand: 1 second is 60 ticks; no time, or a first ADVANCE, is 1 tick; a tie of 2.5 ticks may be 2 or 3. -/
theorem test_tick_count :
    { State.reset with hasBaseline := true, lastTime := 5 }.tickCount 6 = 60 ∧
    { State.reset with hasBaseline := true, lastTime := 5 }.tickCount 5 = 1 ∧ State.reset.tickCount 99 = 1 ∧
    roundedTicks (5 / 2) false = 2 ∧ roundedTicks (5 / 2) true = 3 := by decide +kernel

/-- R178, R179, by hand. -/
theorem test_speed_and_pixel :
    afterHost (.setSpeed 0) State.reset (fun t => t.speed) = some (0, []) ∧
    afterHost (.isLit 63 31) (withLit State.reset [(63, 31)]) (fun t => t.fb.pixel 63 31) = some (true, [.lit true]) := by
  decide

/-! ## Witnesses: concrete states and operands that meet the hypotheses of each obligation, at the bounds of its clauses -/

theorem witness_EncodeInvertsDecode : decode 0xDFFF = .instr (.drw 0xF 0xF 0xF) := by decide

theorem witness_DecodeFollowsTheOpcodeTable :
    (∀ row ∈ opcodeRows, row.matchesWord 0x8AB8 = false) ∧ decode 0x8AB8 = .invalidOpcode 0x8AB8 ∧
    decode 0x8ABE = .instr (.shl 0xA 0xB) ∧ (⟨"SHL_Vx", 0x800E, 0xF00F⟩ : OpcodeRow).matchesWord 0x8ABE = true := by
  decide

/-- At the last fetchable address and at the entry point. -/
theorem witness_StepRunsTheDecodedInstruction :
    ∃ s : State, s.fault = none ∧ s.waiting = false ∧ s.pc = 4094 ∧
      decode (s.mem.read s.pc.toNat ++ s.mem.read (s.pc.toNat + 1)) = .instr (.ldImm 0 1) :=
  ⟨{ State.reset with pc := 4094 }.withFetchWord 16 0x6001, by decide⟩

theorem witness_ClosedSlotChangesNothing :
    (∃ s : State, s.fault ≠ none ∧ s.waiting = false) ∧ ∃ s : State, s.waiting = true ∧ s.fault = none :=
  ⟨⟨{ State.reset with fault := some ⟨.invalidOpcode, 0x8AB8⟩ }, by decide⟩,
    ⟨{ State.reset with waiting := true }, by decide⟩⟩

theorem witness_FetchReadsTwoBytesOrFaults :
    (∃ s : State, s.pc = 0 ∧ s.pc.toNat ≤ 4094) ∧ (∃ s : State, s.pc = 4094 ∧ s.pc.toNat ≤ 4094) ∧
    (∃ s : State, s.pc = 4095 ∧ 4095 ≤ s.pc.toNat ∧ s.fault = none ∧ s.waiting = false) ∧
    ∃ s : State, s.pc = 65535 ∧ 4095 ≤ s.pc.toNat ∧ s.fault = none ∧ s.waiting = false :=
  ⟨⟨{ State.reset with pc := 0 }, by decide⟩, ⟨{ State.reset with pc := 4094 }, by decide⟩,
    ⟨{ State.reset with pc := 4095 }, by decide⟩, ⟨{ State.reset with pc := 65535 }, by decide⟩⟩

theorem witness_IllegalWordFaults :
    ∃ (s : State) (op : Word), s.fault = none ∧ s.waiting = false ∧ s.pc.toNat ≤ 4094 ∧
      op = s.mem.read s.pc.toNat ++ s.mem.read (s.pc.toNat + 1) ∧ ∀ row ∈ opcodeRows, row.matchesWord op = false :=
  ⟨{ State.reset with pc := 4094 }.withFetchWord 16 0xFFFF, 0xFFFF, by decide⟩

theorem witness_ReturnPopsOrUnderflows :
    (∃ s : State, s.sp = 0) ∧ (∃ s : State, s.sp.toNat = (0 : Fin 16).val + 1) ∧
    ∃ s : State, s.sp.toNat = (15 : Fin 16).val + 1 :=
  ⟨⟨State.reset, rfl⟩, ⟨{ State.reset with sp := 1 }, rfl⟩, ⟨{ State.reset with sp := 16 }, rfl⟩⟩

theorem witness_CallPushesOrOverflows :
    (∃ s : State, s.sp = 16) ∧ (∃ s : State, s.sp.toNat = (0 : Fin 16).val) ∧
    ∃ s : State, s.sp.toNat = (15 : Fin 16).val :=
  ⟨⟨{ State.reset with sp := 16 }, rfl⟩, ⟨State.reset, rfl⟩, ⟨{ State.reset with sp := 15 }, rfl⟩⟩

theorem witness_ModelStopsOutsideTheSpec :
    (∃ s : State, s.sp = 17 ∧ 16 < s.sp.toNat) ∧ (∃ s : State, s.sp = 31 ∧ 16 < s.sp.toNat) ∧
    ∃ (s : State) (now : Time), s.hasBaseline = true ∧ now < s.lastTime :=
  ⟨⟨{ State.reset with sp := 17 }, by decide⟩, ⟨{ State.reset with sp := 31 }, by decide⟩,
    ⟨{ State.reset with hasBaseline := true, lastTime := 1 }, 0, rfl, by decide +kernel⟩⟩

theorem witness_CallThenReturnComesBack : ∃ s : State, s.sp = 15 ∧ s.sp.toNat < 16 :=
  ⟨{ State.reset with sp := 15 }, by decide⟩

theorem witness_JumpToSelfChangesNothing :
    ∃ (s : State) (nnn : Addr), s.fault = none ∧ s.waiting = false ∧ s.pc.toNat ≤ 4094 ∧
      decode (s.mem.read s.pc.toNat ++ s.mem.read (s.pc.toNat + 1)) = .instr (.jp nnn) ∧ nnn.toNat = s.pc.toNat :=
  ⟨State.reset.withFetchWord 16 0x1200, 0x200, by decide⟩

/-- V1 = V2 = 0x80 for the sum; the same state for the other four instructions. -/
theorem witness_FlagAndResultAreExact :
    ∃ s : State, (1 : Nibble) ≠ 15 ∧ (∃ t, exec (.addReg 1 2) s = .next t) ∧ (∃ t, exec (.subReg 1 2) s = .next t) ∧
      (∃ t, exec (.subn 1 2) s = .next t) ∧ (∃ t, exec (.shr 1 2) s = .next t) ∧ ∃ t, exec (.shl 1 2) s = .next t :=
  ⟨regs [(1, 0x80), (2, 0x80)], by decide, ⟨_, rfl⟩, ⟨_, rfl⟩, ⟨_, rfl⟩, ⟨_, rfl⟩, ⟨_, rfl⟩⟩

theorem witness_RandomByteIsMasked : (0x7F : Byte).getLsbD 7 = false ∧ (0x00 : Byte).getLsbD 0 = false := by decide

theorem witness_BcdStoresThreeDigits :
    (∃ s : State, s.i = 4093 ∧ s.i.toNat + 2 ≤ 4095) ∧ ∃ s : State, s.i = 4094 ∧ s.i.toNat + 2 > 4095 :=
  ⟨⟨{ State.reset with i := 4093 }, by decide⟩, ⟨{ State.reset with i := 4094 }, by decide⟩⟩

/-- For the dump and for the load: sixteen registers ending at 4095, and one byte further; one register at 4095 and at 4096. -/
theorem witness_RegisterDumpStoresAscending :
    (∃ s : State, s.i = 0x0FF0 ∧ s.i.toNat + (15 : Nibble).toNat ≤ 4095) ∧
    (∃ s : State, s.i = 0x0FF1 ∧ s.i.toNat + (15 : Nibble).toNat > 4095) ∧
    (∃ s : State, s.i = 4095 ∧ s.i.toNat + (0 : Nibble).toNat ≤ 4095) ∧
    ∃ s : State, s.i = 4096 ∧ s.i.toNat + (0 : Nibble).toNat > 4095 :=
  ⟨⟨{ State.reset with i := 0x0FF0 }, by decide⟩, ⟨{ State.reset with i := 0x0FF1 }, by decide⟩,
    ⟨{ State.reset with i := 4095 }, by decide⟩, ⟨{ State.reset with i := 4096 }, by decide⟩⟩

theorem witness_RegisterLoadReadsAscending :
    (∃ s : State, s.i.toNat + (15 : Nibble).toNat ≤ 4095 ∧ s.mem.read (s.i.toNat + 15) = 0xAB) ∧
    ∃ s : State, s.i = 0xFFFF ∧ s.i.toNat + (0 : Nibble).toNat > 4095 :=
  ⟨⟨{ withBytes State.reset 0xFFF [0xAB] with i := 0x0FF0 }, by decide⟩, ⟨{ State.reset with i := 0xFFFF }, by decide⟩⟩

theorem witness_DumpThenLoadRestoresRegisters :
    ∃ s : State, s.i = 0x0FF0 ∧ s.i.toNat + (15 : Nibble).toNat ≤ 4095 := ⟨{ State.reset with i := 0x0FF0 }, by decide⟩

/-- P6 of section 5, one instruction on: `F155` at 0x206 with `I = 0x208`. -/
theorem witness_StoreIsSeenByTheNextFetch :
    ∃ s : State, s.fault = none ∧ s.waiting = false ∧ s.pc.toNat ≤ 4092 ∧ 1 ≤ (1 : Nibble).toNat ∧
      decode (s.mem.read s.pc.toNat ++ s.mem.read (s.pc.toNat + 1)) = .instr (.stRegs 1) ∧
      s.i = s.pc + 2 ∧ s.i.toNat + (1 : Nibble).toNat ≤ 4095 :=
  ⟨{ regs [(0, 0x12), (1, 0x08)] with pc := 0x206, i := 0x208 }.withFetchWord 16 0xF155, by decide⟩

/-- No rows at `I = 65535`; one row at 4095; three rows at 4094; a covered pixel lit (V-DRW-9), one unlit, one not covered. -/
theorem witness_DrawTogglesTheSpritePixels :
    (∃ s : State, s.i = 0xFFFF ∧ ((0 : Nibble) = 0 ∨ s.i.toNat + (0 : Nibble).toNat - 1 ≤ 4095)) ∧
    (∃ s : State, s.i = 4095 ∧ ((1 : Nibble) = 0 ∨ s.i.toNat + (1 : Nibble).toNat - 1 ≤ 4095)) ∧
    (∃ s : State, s.i = 0x0FFE ∧ (3 : Nibble) ≠ 0 ∧ s.i.toNat + (3 : Nibble).toNat - 1 > 4095) ∧
    (∃ s : State, s.SpriteCovers 0 1 1 1 0 ∧ s.fb.pixel 1 0 = true) ∧
    (∃ s : State, s.SpriteCovers 0 1 1 0 0 ∧ s.fb.pixel 0 0 = false) ∧
    (∃ s : State, ¬ s.SpriteCovers 0 1 0 0 0) := by
  refine ⟨⟨{ State.reset with i := 0xFFFF }, by decide⟩, ⟨{ State.reset with i := 4095 }, by decide⟩,
    ⟨{ State.reset with i := 0x0FFE }, by decide⟩,
    ⟨{ withBytes (withLit State.reset [(1, 0)]) 0x300 [0xC0] with i := 0x0300 }, ⟨0, 1, by decide⟩, by decide +kernel⟩,
    ⟨{ withBytes (withLit State.reset [(1, 0)]) 0x300 [0xC0] with i := 0x0300 }, ⟨0, 0, by decide⟩, by decide +kernel⟩,
    ⟨State.reset, ?_⟩⟩
  rintro ⟨r, c, hr, -⟩
  exact absurd hr (Nat.not_lt_zero r)

theorem witness_DrawTwiceRestoresTheScreen :
    ∃ s : State, (0 : Nibble) ≠ 15 ∧ (1 : Nibble) ≠ 15 ∧ ((15 : Nibble) = 0 ∨ s.i.toNat + (15 : Nibble).toNat - 1 ≤ 4095) :=
  ⟨{ State.reset with i := 0x0FF1 }, by decide⟩

theorem witness_KeySkipsReadTheLatch :
    (∃ s : State, (s.readV 2).toNat = (0 : Fin 16).val ∧ s.key[(0 : Fin 16)] = false) ∧
    (∃ s : State, (s.readV 2).toNat = (15 : Fin 16).val ∧ s.key[(15 : Fin 16)] = true) ∧
    ∃ s : State, s.readV 2 = 16 ∧ (s.readV 2).toNat > 15 :=
  ⟨⟨State.reset, by decide⟩, ⟨{ regs [(2, 15)] with key := State.reset.key.set 15 true }, by decide⟩,
    ⟨regs [(2, 16)], by decide⟩⟩

theorem witness_LoadResetsTheMachine :
    (List.replicate 3585 (0xAB : Byte)).length > 3584 ∧ (List.replicate 3584 (0xAB : Byte)).length ≤ 3584 ∧
    ([] : List Byte).length ≤ 3584 := by
  simp only [List.length_replicate, List.length_nil]
  decide

theorem witness_KeyEventsUpdateTheLatch :
    (∃ s : State, s.waiting = false) ∧ ∃ s : State, s.waiting = true ∧ s.waitReg = 15 ∧ s.key[(15 : Fin 16)] = true :=
  ⟨⟨State.reset, rfl⟩,
    ⟨{ State.reset with waiting := true, waitReg := 15, key := State.reset.key.set 15 true }, by decide⟩⟩

/-- No baseline; a baseline and no time gone by; exactly half a tick gone by; more. -/
theorem witness_TickCountIsTheNearestButAtLeastOne :
    (∃ s : State, s.hasBaseline = false ∧ (s.hasBaseline = true → s.lastTime ≤ 7)) ∧
    (∃ s : State, s.hasBaseline = true ∧ s.lastTime ≤ 5 ∧ (5 - s.lastTime) * 60 = 0) ∧
    (∃ s : State, s.hasBaseline = true ∧ s.lastTime ≤ 1 / 120 ∧ (1 / 120 - s.lastTime) * 60 = 1 / 2) ∧
    ∃ s : State, s.hasBaseline = true ∧ s.lastTime ≤ 6 ∧ (1 : Time) / 2 ≤ (6 - s.lastTime) * 60 :=
  ⟨⟨State.reset, by decide⟩, ⟨{ State.reset with hasBaseline := true, lastTime := 5 }, by decide +kernel⟩,
    ⟨{ State.reset with hasBaseline := true, lastTime := 0 }, by decide +kernel⟩,
    ⟨{ State.reset with hasBaseline := true, lastTime := 5 }, by decide +kernel⟩⟩

/-- One clause without a report, one with. -/
theorem witness_AdvanceReportsAFaultOnce :
    (∃ (s t : State) (out : List Output), s.advanceBy 1 = .next (t, out) ∧ t.fault = s.fault) ∧
    ∃ (s t : State) (out : List Output), s.advanceBy 1 = .next (t, out) ∧ s.fault = none ∧ t.fault ≠ none :=
  ⟨⟨{ State.reset with speed := 1 }, _, _, rfl, by decide⟩,
    ⟨{ State.reset.withFetchWord 16 0x8AB8 with speed := 2 }, _, _, rfl, by decide, by decide⟩⟩

theorem witness_StoppedMachineOnlyTicks : (∃ s : State, s.Faulted) ∧ ∃ s : State, s.Waiting :=
  ⟨⟨{ State.reset with fault := some ⟨.stackUnderflow, 0x00EE⟩ }, by decide⟩,
    ⟨{ State.reset with waiting := true }, rfl⟩⟩

/-- A faulted machine under a PRESS, and under a LOAD that does not fit. -/
theorem witness_OnlyLoadClearsAFault :
    (∃ (s t : State) (out : List Output), s.Faulted ∧
      (∀ prog, HostOp.press 1 = .load prog → ¬ ProgramFits prog) ∧ hostStep (.press 1) s = .next (t, out)) ∧
    ∃ (s t : State) (out : List Output), s.Faulted ∧
      (∀ prog, HostOp.load (List.replicate 3585 0) = .load prog → ¬ ProgramFits prog) ∧
      hostStep (.load (List.replicate 3585 0)) s = .next (t, out) := by
  refine ⟨⟨{ State.reset with fault := some ⟨.stackUnderflow, 0x00EE⟩ }, _, _, by decide, by simp, rfl⟩,
    ⟨{ State.reset with fault := some ⟨.stackUnderflow, 0x00EE⟩ },
      { State.reset with fault := some ⟨.stackUnderflow, 0x00EE⟩ }, [.loadError], by decide, ?_, ?_⟩⟩
  · rintro prog h
    injection h with h
    subst h
    simp only [ProgramFits, List.length_replicate]
    decide
  · simp only [hostStep, State.load, List.length_replicate]
    rfl

/-- Reset, and the far corners of the invariant: `PC = 0x10FE`, `SP = 16`, a return address of 4096, a listed cell. -/
theorem witness_StepKeepsGoodStates :
    State.reset.Good ∧
    ∃ s : State, s.Good ∧ s.pc = 0x10FE ∧ s.sp = 16 ∧ s.stack[15] = 4096 ∧ s.mem = [(4095, 1)] ∧ s.waiting = true :=
  ⟨by decide, ⟨{ State.reset with
    pc := 0x10FE, sp := 16, stack := State.reset.stack.set 15 4096, mem := [(4095, 1)], waiting := true },
    by decide +kernel⟩⟩

theorem witness_HostOperationsKeepGoodStates :
    ∃ (s t : State) (out : List Output), s.Good ∧ hostStep (.press 3) s = .next (t, out) ∧ t ≠ s :=
  ⟨{ State.reset with waiting := true }, _, _, by decide, rfl,
    fun h => Bool.false_ne_true (congrArg (fun u : State => u.waiting) h)⟩

/-- Each clause's premise is met: memory, `I`, the stack and `SP` change. -/
theorem witness_WritersOfMemoryIndexAndStack :
    (∃ s t : State, exec (.ldB 0) s = .next t ∧ t.mem ≠ s.mem) ∧
    (∃ s t : State, exec (.ldI 5) s = .next t ∧ t.i ≠ s.i) ∧
    ∃ s t : State, exec (.call 0x300) s = .next t ∧ t.stack ≠ s.stack ∧ t.sp ≠ s.sp :=
  ⟨⟨{ regs [(0, 7)] with i := 0x300 }, _, rfl, by decide⟩, ⟨State.reset, _, rfl, by decide⟩,
    ⟨State.reset, _, rfl, by decide, by decide⟩⟩

theorem witness_WritersOfTimersScreenAndWait :
    (∃ s t : State, exec (.ldDtVx 0) s = .next t ∧ t.dt ≠ s.dt) ∧
    (∃ s t : State, exec (.ldStVx 0) s = .next t ∧ t.st ≠ s.st) ∧
    (∃ s t : State, exec .cls s = .next t ∧ t.fb ≠ s.fb) ∧
    (∃ s t : State, exec (.ldVxK 3) s = .next t ∧ (t.waiting ≠ s.waiting ∨ t.waitReg ≠ s.waitReg)) ∧
    ∃ s t : State, exec (.rnd 0 0) s = .next t ∧ t.draws ≠ s.draws :=
  ⟨⟨regs [(0, 7)], _, rfl, by decide⟩, ⟨regs [(0, 7)], _, rfl, by decide⟩,
    ⟨withLit State.reset [(0, 0)], _, rfl, by decide +kernel⟩, ⟨State.reset, _, rfl, by decide⟩,
    ⟨State.reset, _, rfl, by decide⟩⟩

/-- A draw and a new program counter that the counter does not reach. -/
theorem witness_DrawsReachOnlyRandomBytes :
    ∃ s t : State, (∀ x kk, Instr.jp 0x300 ≠ .rnd x kk) ∧ exec (.jp 0x300) s = .next t ∧
      ({ s with draws := 7 } : State) ≠ s :=
  ⟨State.reset, _, by simp, rfl, fun h => absurd (congrArg State.draws h) (by decide)⟩

theorem witness_WritersOfGeneralRegisters :
    (∃ s t : State, exec (.ldImm 3 7) s = .next t ∧ t.readV 3 ≠ s.readV 3) ∧
    ∃ s t : State, exec (.addReg 0 1) s = .next t ∧ t.readV 15 ≠ s.readV 15 :=
  ⟨⟨State.reset, _, rfl, by decide⟩, ⟨regs [(0, 0xFF), (1, 0x02)], _, rfl, by decide⟩⟩

theorem witness_PcMovesOnlyByControlTransfer :
    (∃ s t : State, exec (.jp 0x300) s = .next t ∧ t.pc ≠ s.pc) ∧
    ∃ s t : State, exec (.sknp 0) s = .next t ∧ t.pc ≠ s.pc :=
  ⟨⟨State.reset, _, rfl, by decide⟩, ⟨State.reset, _, rfl, by decide⟩⟩

theorem witness_StepKeepsHostState :
    ∃ s t : State, step s = .next t ∧ t ≠ s ∧ s.key[(2 : Fin 16)] = true ∧ s.hasBaseline = true :=
  ⟨{ State.reset with key := State.reset.key.set 2 true, hasBaseline := true, lastTime := 3 }, _, rfl,
    by decide +kernel, by decide, by decide⟩

theorem witness_FaultingInstructionHasNoOtherEffect :
    (∃ s t : State, exec .ret s = .next t ∧ t.fault ≠ s.fault) ∧
    (∃ s t : State, exec (.skp 2) s = .next t ∧ t.fault ≠ s.fault) ∧
    ∃ s t : State, exec (.ldB 3) s = .next t ∧ t.fault ≠ s.fault :=
  ⟨⟨State.reset, _, rfl, by decide⟩, ⟨regs [(2, 16)], _, rfl, by decide⟩,
    ⟨{ State.reset with i := 4094 }, _, rfl, by decide⟩⟩

theorem witness_ProgramCannotSeeSoundSpeedOrClock :
    ∃ s s' t : State, State.SameToProgram s s' ∧ s ≠ s' ∧ step s = .next t ∧ t ≠ s :=
  ⟨State.reset, { State.reset with st := 9, speed := 1, hasBaseline := true, lastTime := 7 }, _, rfl, by decide +kernel,
    rfl, by decide +kernel⟩

end Sys2Proof.Tests
end

section
/-! What one instruction can do, said once for all 35 of them, and the invariant and writer statements that follow from it. -/

namespace Sys2Proof.Machine

open Host (Outcome)

/-! ## The effects of an instruction -/

/-- Every way an instruction that completes can change the state it starts from (40_step_cycle.md R93): one constructor per
shape of next state, with what it says about the instruction. The state is the one after the PC advance (R92). -/
inductive Effect (i : Instr) (s : State) : State → Prop
  /-- The latch is set with the instruction's own word, nothing else happens (R198). -/
  | raised (kind : FaultKind) : Effect i s (s.raise kind (encode i))
  /-- R103 to R106, R160, R161. -/
  | skipped (cond : Bool) (hi : transfersControl i = true) : Effect i s (s.skipIf cond)
  /-- R101, R107: the highest target is 0xFFF + 0xFF. -/
  | jumped (a : Word) (hi : transfersControl i = true) (ha : a.toNat ≤ 0x10FE) : Effect i s (s.writePc a)
  /-- R102. -/
  | called (nnn : Addr) (hi : i = .call nnn) (hsp : s.sp.toNat < 16) :
      Effect i s (State.writePc { s with stack := s.stack.set s.sp.toNat s.pc, sp := s.sp + 1 } (zextAddr nnn))
  /-- R100. -/
  | returned (hi : i = .ret) (hsp : 1 ≤ s.sp.toNat ∧ s.sp.toNat ≤ 16) :
      Effect i s { s with sp := s.sp - 1, pc := s.stack[s.sp.toNat - 1]'(by omega) }
  /-- R120 to R125, R162. -/
  | wroteReg (x : Nibble) (b : Byte) (hx : mayWriteReg i x = true) : Effect i s (s.writeV x b)
  /-- R126 to R130, R133. -/
  | wroteFlagged (x : Nibble) (flag b : Byte) (hx : mayWriteReg i x = true) (hvf : mayWriteReg i 15 = true) :
      Effect i s (s.writeFlagThenResult x flag b)
  /-- R131. -/
  | drewRandom (x : Nibble) (kk : Byte) (hi : i = .rnd x kk) : Effect i s (s.rand.2.writeV x (s.rand.1 &&& kk))
  /-- R140 to R142. -/
  | wroteIndex (a : Word) (hi : ∃ x nnn, i = .ldI nnn ∨ i = .addI x ∨ i = .ldF x) : Effect i s (s.writeI a)
  /-- R143, R144: inside memory, or the instruction faults (R52). -/
  | stored (bs : List Byte) (hi : ∃ x, i = .ldB x ∨ i = .stRegs x) (hr : s.i.toNat + bs.length ≤ 4096) :
      Effect i s { s with mem := s.mem.writeBytes s.i.toNat bs }
  /-- R145. -/
  | loaded (x : Nibble) (bs : List Byte) (hi : i = .ldRegs x) (hl : bs.length = x.toNat + 1) :
      Effect i s (s.loadFirstRegs bs)
  /-- R150, R151. -/
  | cleared (hi : i = .cls ∨ i = .cls0) : Effect i s s.clearScreen
  /-- R152. -/
  | drew (x y n : Nibble) (drawn : Framebuffer × Bool) (hi : i = .drw x y n) : Effect i s (s.afterDraw drawn)
  /-- R163. -/
  | waits (x : Nibble) (hi : i = .ldVxK x) : Effect i s { s with waiting := true, waitReg := x }
  /-- R164. -/
  | setDelay (x : Nibble) (hi : i = .ldDtVx x) : Effect i s { s with dt := s.readV x }
  /-- R165. -/
  | setSound (x : Nibble) (hi : i = .ldStVx x) : Effect i s { s with st := s.readV x }

/-- What `exec` can answer: a next state reached by an effect of the instruction, or the model's own fault, from a stack pointer
that R26 excludes (assumption log 8). -/
def ExecAnswers (i : Instr) (s : State) (answer : Outcome State Fault Refusal) : Prop :=
  (∃ t, answer = .next t ∧ Effect i s t) ∨ (answer = .fault .stackPointerOutOfRange ∧ 16 < s.sp.toNat)

theorem Effect.answers {i : Instr} {s t : State} (e : Effect i s t) : ExecAnswers i s (.next t) :=
  .inl ⟨t, rfl, e⟩

/-! ### The instructions whose answer depends on the state -/

theorem zextAddr_toNat (nnn : Addr) : (zextAddr nnn).toNat = nnn.toNat := by
  have := nnn.isLt
  simp [zextAddr]; omega

/-- The target of Bnnn does not wrap: at most 0xFFF + 0xFF (R24, R107). -/
theorem jumpOffset_toNat (nnn : Addr) (b : Byte) : (zextAddr nnn + zextByte b).toNat = nnn.toNat + b.toNat := by
  have := nnn.isLt
  have := b.isLt
  have hb : (zextByte b).toNat = b.toNat := by simp [zextByte]; omega
  rw [BitVec.toNat_add, zextAddr_toNat, hb]
  omega

theorem execRet_answers (s : State) : ExecAnswers .ret s (execRet s) := by
  unfold execRet
  split
  · exact (Effect.raised _).answers
  · next h0 =>
    have hne : s.sp.toNat ≠ 0 := fun e => h0 (BitVec.eq_of_toNat_eq e)
    by_cases hle : s.sp.toNat ≤ 16
    · have hsp : 1 ≤ s.sp.toNat ∧ s.sp.toNat ≤ 16 := ⟨by omega, hle⟩
      rw [s.popPc_of_legal hsp]
      exact (Effect.returned rfl hsp).answers
    · rw [s.popPc_of_illegal (by omega)]
      exact .inr ⟨rfl, by omega⟩

theorem execCall_answers (nnn : Addr) (s : State) : ExecAnswers (.call nnn) s (execCall nnn s) := by
  unfold execCall
  split
  · exact (Effect.raised _).answers
  · next h16 =>
    have hne : s.sp.toNat ≠ 16 := fun e => h16 (BitVec.eq_of_toNat_eq e)
    by_cases hlt : s.sp.toNat < 16
    · rw [s.pushPc_of_lt hlt]
      exact (Effect.called nnn rfl hlt).answers
    · rw [s.pushPc_of_ge (by omega)]
      exact .inr ⟨rfl, by omega⟩

/-- Both key skips: a fault for a byte above 15, else a skip (R160, R161). -/
theorem skipIfKey_answers (i : Instr) (x : Nibble) (level : Bool) (s : State) (hi : transfersControl i = true) :
    ExecAnswers i s (.next (s.skipIfKey x level (encode i))) := by
  unfold State.skipIfKey
  split
  · exact (Effect.raised _).answers
  · exact (Effect.skipped _ hi).answers

/-- Both stores: a fault and no byte, or all the bytes inside memory (R52, R53). -/
theorem store_answers (i : Instr) (bs : List Byte) (s : State) (hi : ∃ x, i = .ldB x ∨ i = .stRegs x)
    (hbs : 0 < bs.length) :
    ExecAnswers i s (.next (orAddressFault (s.memWrite s.i bs) (encode i) s fun t => t)) := by
  rcases s.memWrite_cases s.i bs with ⟨h, -⟩ | ⟨h, hr⟩
  · rw [h]
    exact (Effect.raised _).answers
  · rw [h]
    exact (Effect.stored bs hi (by omega)).answers

theorem memRead_length {s : State} {a : Word} {n : Nat} {bs : List Byte} (h : s.memRead a n = some bs) :
    bs.length = n := by
  unfold State.memRead at h
  split at h
  · cases h
  · cases h
    simp

theorem execLdRegs_answers (x : Nibble) (s : State) : ExecAnswers (.ldRegs x) s (execLdRegs x s) := by
  unfold execLdRegs
  rcases orAddressFault_cases (s.memRead s.i (x.toNat + 1)) (encode (.ldRegs x)) s s.loadFirstRegs with
    ⟨-, h⟩ | ⟨bs, hbs, h⟩
  · rw [h]
    exact (Effect.raised _).answers
  · rw [h]
    exact (Effect.loaded x bs rfl (memRead_length hbs)).answers

theorem execDrw_answers (x y n : Nibble) (s : State) : ExecAnswers (.drw x y n) s (execDrw x y n s) := by
  unfold execDrw
  rcases orAddressFault_cases (s.memRead s.i n.toNat) (encode (.drw x y n)) s fun rows =>
      s.afterDraw (drawSprite s.fb rows (s.readV x).toNat (s.readV y).toNat) with ⟨-, h⟩ | ⟨rows, -, h⟩
  · rw [h]
    exact (Effect.raised _).answers
  · rw [h]
    exact (Effect.drew x y n _ rfl).answers

/-! ### All instructions -/

theorem exec_jp_answers (nnn : Addr) (s : State) : ExecAnswers (.jp nnn) s (exec (.jp nnn) s) := by
  have ha : (zextAddr nnn).toNat ≤ 0x10FE := by
    have := nnn.isLt
    rw [zextAddr_toNat]; omega
  exact (Effect.jumped _ rfl ha).answers

theorem exec_jpV0_answers (nnn : Addr) (s : State) : ExecAnswers (.jpV0 nnn) s (exec (.jpV0 nnn) s) := by
  have ha : (zextAddr nnn + zextByte (s.readV 0)).toNat ≤ 0x10FE := by
    have := nnn.isLt
    have := (s.readV 0).isLt
    rw [jumpOffset_toNat]; omega
  exact (Effect.jumped _ rfl ha).answers

/-- Everything an instruction can answer, by the kinds of rows of the opcode map. -/
theorem exec_answers (i : Instr) (s : State) : ExecAnswers i s (exec i s) := by
  cases i with
  | cls => exact (Effect.cleared (.inl rfl)).answers
  | cls0 => exact (Effect.cleared (.inr rfl)).answers
  | ret => exact execRet_answers s
  | jp nnn => exact exec_jp_answers nnn s
  | call nnn => exact execCall_answers nnn s
  | jpV0 nnn => exact exec_jpV0_answers nnn s
  | seImm | sneImm | seReg | sneReg => exact (Effect.skipped _ rfl).answers
  | skp x => exact skipIfKey_answers (.skp x) x true s rfl
  | sknp x => exact skipIfKey_answers (.sknp x) x false s rfl
  | ldImm x _ | addImm x _ | ldReg x _ | orReg x _ | andReg x _ | xorReg x _ | ldVxDt x =>
    exact (Effect.wroteReg x _ (by simp [mayWriteReg])).answers
  | addReg x _ | subReg x _ | shr x _ | subn x _ | shl x _ =>
    exact (Effect.wroteFlagged x _ _ (by simp [mayWriteReg]) (by simp [mayWriteReg])).answers
  | rnd x kk => exact (Effect.drewRandom x kk rfl).answers
  | ldI nnn => exact (Effect.wroteIndex _ ⟨0, nnn, .inl rfl⟩).answers
  | addI x => exact (Effect.wroteIndex _ ⟨x, 0, .inr (.inl rfl)⟩).answers
  | ldF x => exact (Effect.wroteIndex _ ⟨x, 0, .inr (.inr rfl)⟩).answers
  | ldB x => exact store_answers (.ldB x) _ s ⟨x, .inl rfl⟩ (by simp [bcdDigits])
  | stRegs x => exact store_answers (.stRegs x) _ s ⟨x, .inr rfl⟩ (by simp [State.firstRegs_length])
  | ldRegs x => exact execLdRegs_answers x s
  | drw x y n => exact execDrw_answers x y n s
  | ldVxK x => exact (Effect.waits x rfl).answers
  | ldDtVx x => exact (Effect.setDelay x rfl).answers
  | ldStVx x => exact (Effect.setSound x rfl).answers

/-- An instruction that completes does one of its effects. -/
theorem effect_of_exec {i : Instr} {s t : State} (h : exec i s = .next t) : Effect i s t := by
  rcases exec_answers i s with ⟨u, hu, e⟩ | ⟨hf, -⟩
  · obtain rfl : t = u := by simpa [h] using hu
    exact e
  · simp [h] at hf

/-- From a legal stack pointer every instruction completes (R26). -/
theorem exec_completes (i : Instr) {s : State} (hsp : s.StackPointerLegal) : ∃ t, exec i s = .next t ∧ Effect i s t := by
  rcases exec_answers i s with h | ⟨-, hbad⟩
  · exact h
  · exact absurd hsp (by omega)

/-! ## Good states -/

section
variable {i : Instr} {s t : State} (e : Effect i s t)
include e

/-- R50: the one effect that writes memory stays inside it. -/
theorem Effect.keeps_memoryCanonical (h : s.MemoryCanonical) : t.MemoryCanonical := by
  cases e with
  | stored bs _ hr => exact s.mem.wf_writeBytes s.i.toNat bs h hr
  | skipped => simpa [State.MemoryCanonical] using h
  | _ => exact h

/-- R26: a push needs `SP` below 16, a pop `SP` above 0. -/
theorem Effect.keeps_stackPointerLegal (h : s.StackPointerLegal) : t.StackPointerLegal := by
  cases e with
  | called nnn _ hsp => simp [State.StackPointerLegal, BitVec.toNat_add]; omega
  | returned _ hsp => simp [State.StackPointerLegal, BitVec.toNat_sub]; omega
  | skipped => simpa using h
  | _ => exact h

/-- R24: from an advanced `PC` of at most 4096 no skip wraps, no target is above 0x10FE, and what a call pushes is the advanced
`PC`. -/
theorem Effect.keeps_pcBounded (hpc : s.pc.toNat ≤ 4096) (hst : ∀ j : Fin 16, s.stack[j].toNat ≤ 4096) : t.PcBounded := by
  have hs : s.PcBounded := ⟨by omega, hst⟩
  cases e with
  | skipped cond =>
    refine ⟨?_, by simpa using hst⟩
    cases cond
    · simp; omega
    · simp [BitVec.toNat_add]; omega
  | jumped a _ ha => exact ⟨ha, hst⟩
  | called nnn _ hsp =>
    refine ⟨?_, fun j => ?_⟩
    · have := nnn.isLt
      simp only [State.writePc_pc, zextAddr_toNat]; omega
    · simp only [State.writePc_stack, Fin.getElem_fin, Vector.getElem_set]
      split
      · exact hpc
      · exact hst j
  | returned _ hsp =>
    have := hst ⟨s.sp.toNat - 1, by omega⟩
    exact ⟨Nat.le_trans this (by omega), hst⟩
  | _ => exact hs

/-- R172: in an open slot at most one of the two latches is set. -/
theorem Effect.latchesExclusive (hf : s.fault = none) (hw : s.waiting = false) : t.LatchesExclusive := by
  cases e with
  | raised kind => simp [hw]
  | waits => simp [hf]
  | _ => simp [State.rand, hf]

end

theorem State.good_raise_of_open {s : State} (hs : s.Good) (hw : s.waiting = false) (kind : FaultKind) (info : Word) :
    (s.raise kind info).Good := by
  obtain ⟨hm, hsp, hpc, -⟩ := hs
  exact ⟨hm, hsp, hpc, by simp [hw]⟩

/-- A word that can be fetched stands at 4094 or below, so the advanced `PC` is at most 4096 (R91, R92). -/
theorem State.advancePc_le_of_fetch {s : State} {op : Word} (h : s.fetch = some op) : s.advancePc.pc.toNat ≤ 4096 := by
  have hpc : s.pc.toNat ≤ 4094 := by
    by_contra hgt
    simp [s.fetch_outOfRange (by omega)] at h
  simp [BitVec.toNat_add]; omega

/-- The advance of a fetched word keeps a good state good. -/
theorem State.good_advancePc {s : State} {op : Word} (hs : s.Good) (h : s.fetch = some op) : s.advancePc.Good := by
  obtain ⟨hm, hsp, ⟨-, hst⟩, hx⟩ := hs
  have := State.advancePc_le_of_fetch h
  exact ⟨hm, hsp, ⟨by omega, hst⟩, hx⟩

/-- An instruction in an open slot of a good state completes in a good state. -/
theorem exec_good (i : Instr) {s : State} (hs : s.Good) (hpc : s.pc.toNat ≤ 4096) (hf : s.fault = none)
    (hw : s.waiting = false) : ∃ t, exec i s = .next t ∧ t.Good := by
  obtain ⟨hm, hsp, ⟨-, hst⟩, -⟩ := hs
  obtain ⟨t, ht, e⟩ := exec_completes i hsp
  exact ⟨t, ht, e.keeps_memoryCanonical hm, e.keeps_stackPointerLegal hsp, e.keeps_pcBounded hpc hst,
    e.latchesExclusive hf hw⟩

/-- Settles O46: in each of the four ways a step can go, the next state is good. -/
theorem stepKeepsGoodStates : Obligations.StepKeepsGoodStates := by
  intro s hs
  rcases step_cases s with ⟨-, h⟩ | ⟨ho, -, h⟩ | ⟨op, bad, ho, hf, -, h⟩ | ⟨op, i, ho, hf, -, h⟩
  · exact ⟨s, h, hs⟩
  · obtain ⟨-, hw⟩ := s.slotOpen_iff.1 ho
    exact ⟨_, h, State.good_raise_of_open hs hw _ _⟩
  · obtain ⟨-, hw⟩ := s.slotOpen_iff.1 ho
    exact ⟨_, h, State.good_raise_of_open (State.good_advancePc hs hf) hw _ _⟩
  · obtain ⟨hfault, hw⟩ := s.slotOpen_iff.1 ho
    rw [h]
    exact exec_good i (State.good_advancePc hs hf) (State.advancePc_le_of_fetch hf) hfault hw

/-- Settles O47. -/
theorem resetIsGood : Obligations.ResetIsGood :=
  ⟨Memory.wf_reset, by decide, ⟨by decide, by decide⟩, by decide⟩

end Sys2Proof.Machine
end

section
/-! Which instruction writes which piece of state (10_state.md R20): read off the effects, a field at a time. -/

namespace Sys2Proof.Machine

section
variable {i : Instr} {s t : State} (e : Effect i s t)
include e

theorem Effect.writes_mem (hne : t.mem ≠ s.mem) : ∃ x, i = .ldB x ∨ i = .stRegs x := by
  cases e with
  | stored _ hi => exact hi
  | skipped cond => exact absurd (s.skipIf_mem cond) hne
  | _ => exact absurd rfl hne

theorem Effect.writes_i (hne : t.i ≠ s.i) : ∃ x nnn, i = .ldI nnn ∨ i = .addI x ∨ i = .ldF x := by
  cases e with
  | wroteIndex _ hi => exact hi
  | skipped cond => exact absurd (s.skipIf_i cond) hne
  | _ => exact absurd rfl hne

theorem Effect.writes_stack (hne : t.stack ≠ s.stack) : ∃ nnn, i = .call nnn := by
  cases e with
  | called nnn hi => exact ⟨nnn, hi⟩
  | skipped cond => exact absurd (s.skipIf_stack cond) hne
  | _ => exact absurd rfl hne

theorem Effect.writes_sp (hne : t.sp ≠ s.sp) : ∃ nnn, i = .call nnn ∨ i = .ret := by
  cases e with
  | called nnn hi => exact ⟨nnn, .inl hi⟩
  | returned hi => exact ⟨0, .inr hi⟩
  | skipped cond => exact absurd (s.skipIf_sp cond) hne
  | _ => exact absurd rfl hne

theorem Effect.writes_dt (hne : t.dt ≠ s.dt) : ∃ x, i = .ldDtVx x := by
  cases e with
  | setDelay x hi => exact ⟨x, hi⟩
  | skipped cond => exact absurd (s.skipIf_dt cond) hne
  | _ => exact absurd rfl hne

theorem Effect.writes_st (hne : t.st ≠ s.st) : ∃ x, i = .ldStVx x := by
  cases e with
  | setSound x hi => exact ⟨x, hi⟩
  | skipped cond => exact absurd (s.skipIf_st cond) hne
  | _ => exact absurd rfl hne

theorem Effect.writes_fb (hne : t.fb ≠ s.fb) : ∃ x y n, i = .cls ∨ i = .cls0 ∨ i = .drw x y n := by
  cases e with
  | cleared hi => exact ⟨0, 0, 0, hi.imp_right .inl⟩
  | drew x y n _ hi => exact ⟨x, y, n, .inr (.inr hi)⟩
  | skipped cond => exact absurd (s.skipIf_fb cond) hne
  | _ => exact absurd rfl hne

theorem Effect.writes_wait (hne : t.waiting ≠ s.waiting ∨ t.waitReg ≠ s.waitReg) : ∃ x, i = .ldVxK x := by
  cases e with
  | waits x hi => exact ⟨x, hi⟩
  | skipped cond => simp at hne
  | _ => exact absurd hne (not_or.2 ⟨not_not.2 rfl, not_not.2 rfl⟩)

theorem Effect.writes_draws (hne : t.draws ≠ s.draws) : ∃ x kk, i = .rnd x kk := by
  cases e with
  | drewRandom x kk hi => exact ⟨x, kk, hi⟩
  | skipped cond => exact absurd (s.skipIf_draws cond) hne
  | _ => exact absurd rfl hne

/-- R24: `PC` stays at the advanced address unless control is transferred. -/
theorem Effect.writes_pc (hne : t.pc ≠ s.pc) : transfersControl i = true := by
  cases e with
  | skipped _ hi => exact hi
  | jumped _ hi => exact hi
  | called nnn hi => rw [hi]; rfl
  | returned hi => rw [hi]; rfl
  | _ => exact absurd rfl hne

/-- R20, R22: a register write is to the destination, to VF as the flag, or to a register below the bytes loaded. -/
theorem Effect.writes_reg (r : Nibble) (hne : t.readV r ≠ s.readV r) : mayWriteReg i r = true := by
  cases e with
  | wroteReg x b hx =>
    rw [State.readV_writeV] at hne
    obtain rfl : r = x := by_contra fun h => hne (if_neg h)
    exact hx
  | wroteFlagged x flag b hx hvf =>
    rw [State.readV_writeFlagThenResult] at hne
    by_cases hrx : r = x
    · exact hrx ▸ hx
    · obtain rfl : r = 15 := by_contra fun h => hne ((if_neg hrx).trans (if_neg h))
      exact hvf
  | drewRandom x kk hi =>
    rw [State.readV_writeV] at hne
    have hrx : r = x := by_contra fun h => hne (if_neg h)
    simp [hi, mayWriteReg, hrx]
  | loaded x bs hi hl =>
    have hlt : r.toNat < bs.length := by
      by_contra hge
      rw [State.readV_loadFirstRegs, List.getD_eq_default _ _ (by omega)] at hne
      exact hne rfl
    simp only [hi, mayWriteReg, decide_eq_true_eq]; omega
  | drew x y n drawn hi =>
    rw [State.readV_afterDraw] at hne
    have hr : r = 15 := by_contra fun h => hne (if_neg h)
    simp [hi, mayWriteReg, hr]
  | skipped cond => simp [State.readV] at hne
  | _ => exact absurd rfl hne

end

/-- Settles O49. -/
theorem writersOfMemoryIndexAndStack : Obligations.WritersOfMemoryIndexAndStack := by
  intro i s t h
  have e := effect_of_exec h
  exact ⟨e.writes_mem, e.writes_i, e.writes_stack, e.writes_sp⟩

/-- Settles O50. -/
theorem writersOfTimersScreenAndWait : Obligations.WritersOfTimersScreenAndWait := by
  intro i s t h
  have e := effect_of_exec h
  exact ⟨e.writes_dt, e.writes_st, e.writes_fb, e.writes_wait, e.writes_draws⟩

/-- Settles O51. -/
theorem writersOfGeneralRegisters : Obligations.WritersOfGeneralRegisters :=
  fun _ _ _ r h => (effect_of_exec h).writes_reg r

/-- Settles O52. -/
theorem pcMovesOnlyByControlTransfer : Obligations.PcMovesOnlyByControlTransfer :=
  fun _ _ _ h => (effect_of_exec h).writes_pc

end Sys2Proof.Machine
end

section
/-! What the host operations keep (46_host_operations.md): good states, and a fault already recorded; and the values a reset
gives (10_state.md R37). -/

namespace Sys2Proof.Machine

/-! ## The tick phase and the slots of a stopped machine -/

/-- A tick phase writes the two timers and nothing else (R175). -/
theorem State.tickPhase_frame (n : Nat) (s : State) :
    ∃ d w : Byte, (s.tickPhase n).1 = { s with dt := d, st := w } := by
  induction n generalizing s with
  | zero => exact ⟨s.dt, s.st, rfl⟩
  | succ n ih =>
    obtain ⟨d, w, h⟩ := ih s.tick
    exact ⟨d, w, h⟩

/-- A tick phase emits buzzer signals and nothing else (R176). -/
theorem State.tickPhase_outputs (n : Nat) (s : State) :
    ∀ o ∈ (s.tickPhase n).2, o = .soundStart ∨ o = .soundStop := by
  induction n generalizing s with
  | zero => simp [State.tickPhase]
  | succ n ih =>
    intro o ho
    rcases List.mem_cons.1 ho with rfl | ho
    · unfold State.buzzer
      split
      · exact .inl rfl
      · exact .inr rfl
    · exact ih s.tick o ho

/-- A closed slot is skipped and reports nothing (R90, R181). -/
theorem State.slot_closed {s : State} (h : s.slotOpen = false) : s.slot = .next (s, []) := by
  refine (s.slot_eq_next s []).2 ⟨step_closed s h, ?_⟩
  unfold slotReport
  split
  · next hnone hsome => simp [hnone] at hsome
  · rfl

/-- Slots that find the slot closed change and report nothing (R90). -/
theorem State.slots_closed {s : State} (h : s.slotOpen = false) (k : Nat) : s.slots k = .next (s, []) := by
  induction k with
  | zero => rfl
  | succ k ih => exact (HostResult.andThen_eq_next ..).2 ⟨s, [], [], State.slot_closed h, ih, rfl⟩

theorem State.slotOpen_of_faulted {s : State} (h : s.Faulted) : s.slotOpen = false :=
  Bool.eq_false_iff.2 fun ho => h (s.slotOpen_iff.1 ho).1

/-- An ADVANCE of a faulted machine is its tick phase (R198). -/
theorem State.advanceBy_of_faulted {s : State} (h : s.Faulted) (n : Nat) : s.advanceBy n = .next (s.tickPhase n) := by
  have hf : (s.tickPhase n).1.Faulted := by
    obtain ⟨d, w, ht⟩ := s.tickPhase_frame n
    rw [ht]
    exact h
  refine (HostResult.andThen_eq_next ..).2
    ⟨_, _, [], rfl, State.slots_closed (State.slotOpen_of_faulted hf) _, (List.append_nil _).symm⟩

/-! ## A recorded fault stays -/

/-- The operation leaves the record `f` in the latch and emits no report. -/
def HostResult.KeepsFault (r : HostResult) (f : Option FaultRecord) : Prop :=
  ∀ t out, r = .next (t, out) → t.fault = f ∧ ∀ kind info, Output.faultReport kind info ∉ out

theorem HostResult.keepsFault_next {t : State} {out : List Output} {f : Option FaultRecord} (ht : t.fault = f)
    (hout : ∀ kind info, Output.faultReport kind info ∉ out) : HostResult.KeepsFault (.next (t, out)) f := by
  intro u o h
  cases h
  exact ⟨ht, hout⟩

/-- PRESS is no operation on the latch (R172). -/
theorem State.press_fault (s : State) (k : Nibble) : (s.press k).fault = s.fault := by
  unfold State.press
  dsimp only
  split <;> rfl

theorem State.load_of_not_fits {s : State} {prog : List Byte} (h : ¬ ProgramFits prog) :
    s.load prog = (s, [.loadError]) := if_pos (Nat.lt_of_not_le h)

theorem State.load_of_fits {s : State} {prog : List Byte} (h : ProgramFits prog) :
    s.load prog = (s.loaded prog, []) := if_neg (Nat.not_lt.2 h)

theorem State.advance_keepsFault {s : State} (h : s.Faulted) (now : Time) : (s.advance now).KeepsFault s.fault := by
  unfold State.advance
  split
  · exact nofun
  · rw [State.advanceBy_of_faulted (s := s.withBaseline now) h]
    refine HostResult.keepsFault_next ?_ fun kind info hmem => ?_
    · obtain ⟨d, w, ht⟩ := (s.withBaseline now).tickPhase_frame (s.tickCount now)
      rw [ht]
      rfl
    · rcases State.tickPhase_outputs _ _ _ hmem with h | h <;> cases h

/-- Settles O45, operation by operation: none but LOAD and ADVANCE comes near the latch, and an ADVANCE of a faulted machine only
ticks. -/
theorem onlyLoadClearsAFault : Obligations.OnlyLoadClearsAFault := by
  intro op s t out hs hload
  suffices h : (hostStep op s).KeepsFault s.fault from h t out
  cases op with
  | load prog =>
    rw [hostStep, State.load_of_not_fits (hload prog rfl)]
    exact HostResult.keepsFault_next rfl (by simp)
  | press k => exact HostResult.keepsFault_next (s.press_fault k) (by simp)
  | release k => exact HostResult.keepsFault_next rfl (by simp)
  | advance now => exact State.advance_keepsFault hs now
  | setSpeed n => exact HostResult.keepsFault_next rfl (by simp)
  | isLit x y => exact HostResult.keepsFault_next rfl (by simp)

/-! ## Good states stay good -/

/-- The operation does not end in a fault of the model, and where it completes its state is good. -/
def HostResult.EndsGood (r : HostResult) : Prop :=
  (∀ f, r ≠ .fault f) ∧ ∀ t out, r = .next (t, out) → t.Good

theorem HostResult.endsGood_next {t : State} (out : List Output) (ht : t.Good) :
    HostResult.EndsGood (.next (t, out)) := by
  refine ⟨nofun, fun u o h => ?_⟩
  cases h
  exact ht

theorem HostResult.endsGood_refused (r : Refusal) : HostResult.EndsGood (.refused r) :=
  ⟨nofun, nofun⟩

/-- Two operations in a row end good if the first does and the second does from every good state. -/
theorem HostResult.EndsGood.andThen {first : HostResult} {second : State → HostResult} (h₁ : first.EndsGood)
    (h₂ : ∀ t : State, t.Good → (second t).EndsGood) : (first.andThen second).EndsGood := by
  obtain ⟨hfault, hgood⟩ := h₁
  match first with
  | .fault f => exact absurd rfl (hfault f)
  | .refused r => exact HostResult.endsGood_refused r
  | .next (t, out) =>
    have h := h₂ t (hgood t out rfl)
    unfold HostResult.andThen
    dsimp only
    match second t, h with
    | .fault f, ⟨hfault', _⟩ => exact absurd rfl (hfault' f)
    | .refused r, _ => exact HostResult.endsGood_refused r
    | .next (u, o), ⟨_, hgood'⟩ => exact HostResult.endsGood_next _ (hgood' u o rfl)

theorem State.slot_endsGood {s : State} (hs : s.Good) : s.slot.EndsGood := by
  obtain ⟨t, ht, hgood⟩ := stepKeepsGoodStates s hs
  rw [(s.slot_eq_next t _).2 ⟨ht, rfl⟩]
  exact HostResult.endsGood_next _ hgood

theorem State.slots_endsGood (k : Nat) {s : State} (hs : s.Good) : (s.slots k).EndsGood := by
  induction k generalizing s with
  | zero => exact HostResult.endsGood_next [] hs
  | succ k ih => exact (State.slot_endsGood hs).andThen fun _ ht => ih ht

theorem State.good_tickPhase (n : Nat) {s : State} (hs : s.Good) : (s.tickPhase n).1.Good := by
  obtain ⟨d, w, ht⟩ := s.tickPhase_frame n
  rw [ht]
  exact hs

theorem State.advance_endsGood (now : Time) {s : State} (hs : s.Good) : (s.advance now).EndsGood := by
  unfold State.advance
  split
  · exact HostResult.endsGood_refused _
  · have hb : (s.withBaseline now).Good := hs
    exact (HostResult.endsGood_next _ (State.good_tickPhase _ hb)).andThen fun _ ht => State.slots_endsGood _ ht

/-- A program that fits is written inside memory, over the reset state (R171). -/
theorem State.good_loaded (s : State) {prog : List Byte} (h : ProgramFits prog) : (s.loaded prog).Good := by
  obtain ⟨hm, hsp, hpc, hx⟩ := resetIsGood
  exact ⟨State.reset.mem.wf_writeBytes 512 prog hm (Nat.add_le_add_left h 512), hsp, hpc, hx⟩

theorem State.good_load (s : State) (prog : List Byte) (hs : s.Good) : (s.load prog).1.Good := by
  by_cases h : ProgramFits prog
  · rw [State.load_of_fits h]
    exact s.good_loaded h
  · rw [State.load_of_not_fits h]
    exact hs

theorem State.good_press (s : State) (k : Nibble) (hs : s.Good) : (s.press k).Good := by
  obtain ⟨hm, hsp, hpc, hx⟩ := hs
  unfold State.press
  dsimp only
  split
  · exact ⟨hm, hsp, hpc, by simp⟩
  · exact ⟨hm, hsp, hpc, hx⟩

/-- Settles O48, operation by operation: ADVANCE by the step lemma along its slots, the others by what they leave alone. -/
theorem hostOperationsKeepGoodStates : Obligations.HostOperationsKeepGoodStates := by
  intro op s hs
  change (hostStep op s).EndsGood
  cases op with
  | load prog => exact HostResult.endsGood_next _ (s.good_load prog hs)
  | press k => exact HostResult.endsGood_next _ (s.good_press k hs)
  | release k => exact HostResult.endsGood_next _ hs
  | advance now => exact State.advance_endsGood now hs
  | setSpeed n => exact HostResult.endsGood_next _ hs
  | isLit x y => exact HostResult.endsGood_next _ hs

/-! ## The reset state -/

/-- The font is the whole of the reset memory: the addresses above it read 0 (R37, R51). -/
theorem reset_mem_read (a : Nat) : State.reset.mem.read a = if a < 80 then fontTable.getD a 0 else 0 := by
  change fontTable.getD a 0 = _
  split
  · rfl
  · exact List.getD_eq_default _ _ (Nat.le_of_not_lt ‹_›)

/-- Settles O37. -/
theorem resetHasTheSpecValues : Obligations.ResetHasTheSpecValues := by
  refine ⟨reset_mem_read, rfl, fun r => ?_, rfl, rfl, fun j => ?_, rfl, rfl, blankScreen_pixel, fun k => ?_, rfl, rfl, rfl, rfl,
    rfl⟩
  · exact Vector.getElem_replicate ..
  · exact Vector.getElem_replicate ..
  · exact Vector.getElem_replicate ..

end Sys2Proof.Machine
end

section
/-! A store to the address of the next instruction (20_memory.md R60): what a register dump leaves in memory (43_index_memory.md
R144), and the fetch that reads it (40_step_cycle.md R91). -/

namespace Sys2Proof.Machine

/-- In an open slot a fetched word that decodes is executed on the state whose `PC` is advanced (R91 to R93). -/
theorem step_of_decode {s : State} {op : Word} {i : Instr} (ho : s.slotOpen = true) (hf : s.fetch = some op)
    (hd : decode op = .instr i) : step s = exec i s.advancePc := by
  simp [step, ho, hf, hd]

/-- A dump that fits in memory writes the bytes of `V[0]` to `V[x]` at `I` and changes nothing else (R144). -/
theorem exec_stRegs_inRange {s : State} {x : Nibble} (h : s.i.toNat + x.toNat ≤ 4095) :
    exec (.stRegs x) s = .next { s with mem := s.mem.writeBytes s.i.toNat (s.firstRegs x) } := by
  have hfit : s.i.toNat + (s.firstRegs x).length ≤ 4096 := by rw [State.firstRegs_length]; omega
  change execStRegs x s = _
  rw [execStRegs, s.memWrite_inRange s.i _ (.inr hfit), orAddressFault_some]

/-- Byte `r` of a dump reads back as `V[r]` (R144). -/
theorem Memory.read_writeBytes_firstRegs (m : Memory) (a : Nat) (s : State) {x r : Nibble} (h : r.toNat ≤ x.toNat) :
    (m.writeBytes a (s.firstRegs x)).read (a + r.toNat) = s.readV r := by
  have hr : a ≤ a + r.toNat ∧ a + r.toNat < a + (s.firstRegs x).length := by rw [State.firstRegs_length]; omega
  rw [Memory.read_writeBytes, if_pos hr, Nat.add_sub_cancel_left, State.firstRegs_getD s x r h]

/-- The word fetched where a dump of at least two registers begins is `V[0]`, `V[1]`: every fetch reads memory as it stands
(R60). -/
theorem State.fetch_dumpedAtPc (s : State) {x : Nibble} (hpc : s.pc.toNat ≤ 4094) (hx : 1 ≤ x.toNat) :
    State.fetch { s with mem := s.mem.writeBytes s.pc.toNat (s.firstRegs x) } =
      some (wordOfBytes (s.readV 0) (s.readV 1)) := by
  have hfirst : (s.mem.writeBytes s.pc.toNat (s.firstRegs x)).read s.pc.toNat = s.readV 0 :=
    Memory.read_writeBytes_firstRegs s.mem s.pc.toNat s (r := 0) (Nat.zero_le _)
  have hsecond : (s.mem.writeBytes s.pc.toNat (s.firstRegs x)).read (s.pc.toNat + 1) = s.readV 1 :=
    Memory.read_writeBytes_firstRegs s.mem s.pc.toNat s (r := 1) hx
  rw [State.fetch_inRange]
  · simp only [hfirst, hsecond]
  · exact hpc

/-- Settles O29: the dump starts at the advanced `PC`, so the next fetch reads its first two bytes. -/
theorem storeIsSeenByTheNextFetch : Obligations.StoreIsSeenByTheNextFetch := by
  intro s x hfault hwait hpc hx hdec hi hfit
  have hstep : step s = exec (.stRegs x) s.advancePc :=
    step_of_decode (s.slotOpen_iff.2 ⟨hfault, hwait⟩) (s.fetch_inRange (by omega)) hdec
  have hnext : s.advancePc.pc.toNat ≤ 4094 := by
    simp [BitVec.toNat_add]; omega
  have hdump := exec_stRegs_inRange (s := s.advancePc) hfit
  rw [show s.advancePc.i = s.advancePc.pc from hi] at hdump
  exact ⟨_, hstep.trans hdump, s.advancePc.fetch_dumpedAtPc hnext hx⟩

end Sys2Proof.Machine
end

section
/-! The decoder, the encoder and the opcode map agree (30_encoding.md R71 to R76): an instruction's word decodes to the
instruction, what decoding answers determines the word, and the words of the map's rows are the words of the instructions. -/

namespace Sys2Proof

/-! ## Decoding an encoded instruction -/

/-- Settles O1, format by format: `decode` finds the family and the operands that `encode` put in the word. -/
theorem decodeEncodeRoundTrip : Obligations.DecodeEncodeRoundTrip := by
  intro i
  cases i with
  | cls | cls0 | ret => decide
  | jp nnn | call nnn | ldI nnn | jpV0 nnn => simp [encode, decode, opFamily_A, opNnn_A]
  | seImm x kk | sneImm x kk | ldImm x kk | addImm x kk | rnd x kk =>
    simp [encode, decode, opFamily_XK, opX_XK, opKk_XK]
  | seReg x y | sneReg x y | drw x y n => simp [encode, decode, opFamily_XYN, opX_XYN, opY_XYN, opN_XYN]
  | ldReg x y | orReg x y | andReg x y | xorReg x y | addReg x y | subReg x y | shr x y | subn x y | shl x y =>
    simp [encode, decode, decodeFamily8, opFamily_XYN, opX_XYN, opY_XYN, opN_XYN]
  | skp x | sknp x => simp [encode, decode, decodeFamilyE, opFamily_XK, opX_XK, opKk_XK]
  | ldVxDt x | ldVxK x | ldDtVx x | ldStVx x | addI x | ldF x | ldB x | stRegs x | ldRegs x =>
    simp [encode, decode, decodeFamilyF, opFamily_XK, opX_XK, opKk_XK]

/-! ## The word of what decoding answers -/

section
variable {op : Word} {f : Nibble}

theorem append_opNnn (hf : opFamily op = f) : f ++ opNnn op = op :=
  hf ▸ (word_eq_A op).symm

theorem append_opX_opKk {kk : Byte} (hf : opFamily op = f) (hkk : opKk op = kk) : f ++ opX op ++ kk = op :=
  hf ▸ hkk ▸ (word_eq_XK op).symm

theorem append_opX_opY_opN {n : Nibble} (hf : opFamily op = f) (hn : opN op = n) : f ++ opX op ++ opY op ++ n = op :=
  hf ▸ hn ▸ (word_eq_XYN op).symm

end

/-- The word an answer of the decoder speaks of: the instruction's encoding, or the word rejected (R74, R76). -/
def Decoded.word : Decoded → Word
  | .instr i => encode i
  | .invalidOpcode op => op

section
variable {op : Word}

theorem Decoded.word_ite {c : Prop} [Decidable c] {a b : Decoded} (ha : c → a.word = op) (hb : ¬ c → b.word = op) :
    (if c then a else b).word = op := by
  split
  · exact ha ‹_›
  · exact hb ‹_›

theorem word_decodeFamily0 : (decodeFamily0 op).word = op := by
  unfold decodeFamily0
  iterate 3 refine Decoded.word_ite Eq.symm fun _ => ?_
  rfl

theorem word_decodeFamily8 (hf : opFamily op = 0x8) : (decodeFamily8 op).word = op := by
  unfold decodeFamily8
  iterate 9 refine Decoded.word_ite (append_opX_opY_opN hf) fun _ => ?_
  rfl

theorem word_decodeFamilyE (hf : opFamily op = 0xE) : (decodeFamilyE op).word = op := by
  unfold decodeFamilyE
  iterate 2 refine Decoded.word_ite (append_opX_opKk hf) fun _ => ?_
  rfl

theorem word_decodeFamilyF (hf : opFamily op = 0xF) : (decodeFamilyF op).word = op := by
  unfold decodeFamilyF
  iterate 9 refine Decoded.word_ite (append_opX_opKk hf) fun _ => ?_
  rfl

end

/-- Decoding loses no bit: every answer, a rejection included, determines the word (R72, R76). -/
theorem word_decode (op : Word) : (decode op).word = op := by
  unfold decode
  refine Decoded.word_ite (fun _ => word_decodeFamily0) fun h0 => ?_
  refine Decoded.word_ite append_opNnn fun h1 => ?_
  refine Decoded.word_ite append_opNnn fun h2 => ?_
  refine Decoded.word_ite (fun h => append_opX_opKk h rfl) fun h3 => ?_
  refine Decoded.word_ite (fun h => append_opX_opKk h rfl) fun h4 => ?_
  refine Decoded.word_ite (fun h => Decoded.word_ite (append_opX_opY_opN h) fun _ => rfl) fun h5 => ?_
  refine Decoded.word_ite (fun h => append_opX_opKk h rfl) fun h6 => ?_
  refine Decoded.word_ite (fun h => append_opX_opKk h rfl) fun h7 => ?_
  refine Decoded.word_ite word_decodeFamily8 fun h8 => ?_
  refine Decoded.word_ite (fun h => Decoded.word_ite (append_opX_opY_opN h) fun _ => rfl) fun h9 => ?_
  refine Decoded.word_ite append_opNnn fun hA => ?_
  refine Decoded.word_ite append_opNnn fun hB => ?_
  refine Decoded.word_ite (fun h => append_opX_opKk h rfl) fun hC => ?_
  refine Decoded.word_ite (fun h => append_opX_opY_opN h rfl) fun hD => ?_
  refine Decoded.word_ite word_decodeFamilyE fun hE => ?_
  exact word_decodeFamilyF (by bv_omega)

/-- Settles O2. -/
theorem encodeInvertsDecode : Obligations.EncodeInvertsDecode := by
  intro op i h
  have hword := word_decode op
  rwa [h] at hword

theorem eq_of_decode_invalidOpcode {op bad : Word} (h : decode op = .invalidOpcode bad) : bad = op := by
  have hword := word_decode op
  rwa [h] at hword

/-! ## The words of a row are the words of an instruction -/

section
variable {op : Word} {m : String}

theorem eq_of_matchesWord_Z {w : Word} (h : OpcodeRow.matchesWord ⟨m, w, 0xFFFF⟩ op = true) : w = op := by
  have hop : op &&& BitVec.allOnes 16 = w := beq_iff_eq.1 h
  exact hop.symm.trans BitVec.and_allOnes

theorem opFamily_of_matchesWord (f : Nibble) (h : OpcodeRow.matchesWord ⟨m, f ++ 0#12, 0xF000⟩ op = true) :
    opFamily op = f := by
  have hop : op &&& 0xF000#16 = f ++ 0#12 := beq_iff_eq.1 h
  rw [word_eq_A op, Laws.EncodeMatchesRow.mask_A] at hop
  simpa only [opFamily_A] using congrArg opFamily hop

theorem eq_of_matchesWord_XY (f n : Nibble)
    (h : OpcodeRow.matchesWord ⟨m, f ++ 0#4 ++ 0#4 ++ n, 0xF00F⟩ op = true) : f ++ opX op ++ opY op ++ n = op := by
  have hop : op &&& 0xF00F#16 = f ++ 0#4 ++ 0#4 ++ n := beq_iff_eq.1 h
  rw [word_eq_XYN op, Laws.EncodeMatchesRow.mask_XY] at hop
  have hf : opFamily op = f := by simpa only [opFamily_XYN] using congrArg opFamily hop
  have hn : opN op = n := by simpa only [opN_XYN] using congrArg opN hop
  exact append_opX_opY_opN hf hn

theorem eq_of_matchesWord_X (f : Nibble) (kk : Byte)
    (h : OpcodeRow.matchesWord ⟨m, f ++ 0#4 ++ kk, 0xF0FF⟩ op = true) : f ++ opX op ++ kk = op := by
  have hop : op &&& 0xF0FF#16 = f ++ 0#4 ++ kk := beq_iff_eq.1 h
  rw [word_eq_XK op, Laws.EncodeMatchesRow.mask_X] at hop
  have hf : opFamily op = f := by simpa only [opFamily_XK] using congrArg opFamily hop
  have hkk : opKk op = kk := by simpa only [opKk_XK] using congrArg opKk hop
  exact append_opX_opKk hf hkk

theorem eq_of_matchesWord_A (f : Nibble) (h : OpcodeRow.matchesWord ⟨m, f ++ 0#12, 0xF000⟩ op = true) :
    f ++ opNnn op = op :=
  append_opNnn (opFamily_of_matchesWord f h)

theorem eq_of_matchesWord_XK (f : Nibble) (h : OpcodeRow.matchesWord ⟨m, f ++ 0#12, 0xF000⟩ op = true) :
    f ++ opX op ++ opKk op = op :=
  append_opX_opKk (opFamily_of_matchesWord f h) rfl

theorem eq_of_matchesWord_XYN (f : Nibble) (h : OpcodeRow.matchesWord ⟨m, f ++ 0#12, 0xF000⟩ op = true) :
    f ++ opX op ++ opY op ++ opN op = op :=
  append_opX_opY_opN (opFamily_of_matchesWord f h) rfl

theorem exists_encode_of_rowsZAXK : ∀ row ∈ rowsZAXK, row.matchesWord op = true → ∃ i, encode i = op := by
  simp only [rowsZAXK, List.forall_mem_cons]
  exact ⟨
    fun h => ⟨.cls, eq_of_matchesWord_Z h⟩,
    fun h => ⟨.cls0, eq_of_matchesWord_Z h⟩,
    fun h => ⟨.ret, eq_of_matchesWord_Z h⟩,
    fun h => ⟨.jp _, eq_of_matchesWord_A 0x1 h⟩,
    fun h => ⟨.call _, eq_of_matchesWord_A 0x2 h⟩,
    fun h => ⟨.seImm _ _, eq_of_matchesWord_XK 0x3 h⟩,
    fun h => ⟨.sneImm _ _, eq_of_matchesWord_XK 0x4 h⟩,
    fun h => ⟨.ldImm _ _, eq_of_matchesWord_XK 0x6 h⟩,
    fun h => ⟨.addImm _ _, eq_of_matchesWord_XK 0x7 h⟩,
    fun h => ⟨.ldI _, eq_of_matchesWord_A 0xA h⟩,
    fun h => ⟨.jpV0 _, eq_of_matchesWord_A 0xB h⟩,
    fun h => ⟨.rnd _ _, eq_of_matchesWord_XK 0xC h⟩,
    List.forall_mem_nil _⟩

theorem exists_encode_of_rowsXY : ∀ row ∈ rowsXY, row.matchesWord op = true → ∃ i, encode i = op := by
  simp only [rowsXY, List.forall_mem_cons]
  exact ⟨
    fun h => ⟨.seReg _ _, eq_of_matchesWord_XY 0x5 0x0 h⟩,
    fun h => ⟨.ldReg _ _, eq_of_matchesWord_XY 0x8 0x0 h⟩,
    fun h => ⟨.orReg _ _, eq_of_matchesWord_XY 0x8 0x1 h⟩,
    fun h => ⟨.andReg _ _, eq_of_matchesWord_XY 0x8 0x2 h⟩,
    fun h => ⟨.xorReg _ _, eq_of_matchesWord_XY 0x8 0x3 h⟩,
    fun h => ⟨.addReg _ _, eq_of_matchesWord_XY 0x8 0x4 h⟩,
    fun h => ⟨.subReg _ _, eq_of_matchesWord_XY 0x8 0x5 h⟩,
    fun h => ⟨.shr _ _, eq_of_matchesWord_XY 0x8 0x6 h⟩,
    fun h => ⟨.subn _ _, eq_of_matchesWord_XY 0x8 0x7 h⟩,
    fun h => ⟨.shl _ _, eq_of_matchesWord_XY 0x8 0xE h⟩,
    fun h => ⟨.sneReg _ _, eq_of_matchesWord_XY 0x9 0x0 h⟩,
    fun h => ⟨.drw _ _ _, eq_of_matchesWord_XYN 0xD h⟩,
    List.forall_mem_nil _⟩

theorem exists_encode_of_rowsX : ∀ row ∈ rowsX, row.matchesWord op = true → ∃ i, encode i = op := by
  simp only [rowsX, List.forall_mem_cons]
  exact ⟨
    fun h => ⟨.skp _, eq_of_matchesWord_X 0xE 0x9E h⟩,
    fun h => ⟨.sknp _, eq_of_matchesWord_X 0xE 0xA1 h⟩,
    fun h => ⟨.ldVxDt _, eq_of_matchesWord_X 0xF 0x07 h⟩,
    fun h => ⟨.ldVxK _, eq_of_matchesWord_X 0xF 0x0A h⟩,
    fun h => ⟨.ldDtVx _, eq_of_matchesWord_X 0xF 0x15 h⟩,
    fun h => ⟨.ldStVx _, eq_of_matchesWord_X 0xF 0x18 h⟩,
    fun h => ⟨.addI _, eq_of_matchesWord_X 0xF 0x1E h⟩,
    fun h => ⟨.ldF _, eq_of_matchesWord_X 0xF 0x29 h⟩,
    fun h => ⟨.ldB _, eq_of_matchesWord_X 0xF 0x33 h⟩,
    fun h => ⟨.stRegs _, eq_of_matchesWord_X 0xF 0x55 h⟩,
    fun h => ⟨.ldRegs _, eq_of_matchesWord_X 0xF 0x65 h⟩,
    List.forall_mem_nil _⟩

theorem exists_encode_of_matchesWord {row : OpcodeRow} (hrow : row ∈ opcodeRows) (h : row.matchesWord op = true) :
    ∃ i, encode i = op := by
  rcases List.mem_append.1 hrow with hrow | hrow
  · rcases List.mem_append.1 hrow with hrow | hrow
    · exact exists_encode_of_rowsZAXK row hrow h
    · exact exists_encode_of_rowsXY row hrow h
  · exact exists_encode_of_rowsX row hrow h

end

open Laws.EncodeMatchesRow in
theorem exists_row_matchesWord_encode (i : Instr) :
    ∃ row ∈ opcodeRows, row.mnemonic = mnemonicOf i ∧ row.matchesWord (encode i) = true := by
  cases i
  exacts [cls, cls0, ret, jp _, call _, seImm _ _, sneImm _ _, seReg _ _, ldImm _ _, addImm _ _, ldReg _ _, orReg _ _,
    andReg _ _, xorReg _ _, addReg _ _, subReg _ _, shr _ _, subn _ _, shl _ _, sneReg _ _, ldI _, jpV0 _, rnd _ _,
    drw _ _ _, skp _, sknp _, ldVxDt _, ldVxK _, ldDtVx _, ldStVx _, addI _, ldF _, ldB _, stRegs _, ldRegs _]

/-- A word decodes exactly if it matches a row (R74). -/
theorem decode_instr_iff_matchesWord (op : Word) :
    (∃ i, decode op = .instr i) ↔ ∃ row ∈ opcodeRows, row.matchesWord op = true := by
  constructor
  · rintro ⟨i, h⟩
    obtain ⟨row, hrow, -, hm⟩ := exists_row_matchesWord_encode i
    exact ⟨row, hrow, encodeInvertsDecode op i h ▸ hm⟩
  · rintro ⟨row, hrow, hm⟩
    obtain ⟨i, rfl⟩ := exists_encode_of_matchesWord hrow hm
    exact ⟨i, decodeEncodeRoundTrip i⟩

/-! ## The one row of a word -/

theorem opcodeRows_mnemonics_nodup : (opcodeRows.map OpcodeRow.mnemonic).Nodup := by decide

section
variable {row row' : OpcodeRow} (hrow : row ∈ opcodeRows) (hrow' : row' ∈ opcodeRows)
include hrow hrow'

theorem opcodeRow_eq_of_mnemonic (h : row.mnemonic = row'.mnemonic) : row = row' :=
  List.inj_on_of_nodup_map opcodeRows_mnemonics_nodup hrow hrow' h

/-- No word matches two rows (R74). -/
theorem opcodeRow_eq_of_matchesWord {op : Word} (h : row.matchesWord op = true) (h' : row'.matchesWord op = true) :
    row = row' := by
  by_contra hne
  have : Std.Symm fun r r' : OpcodeRow => r.pattern &&& r'.mask ≠ r'.pattern &&& r.mask := ⟨fun _ _ => Ne.symm⟩
  have hfixed := opcodeRows_pairwise_disjoint.forall hrow hrow' hne
  exact absurd h' (Bool.eq_false_iff.1 (row.not_both row' hfixed op h))

end

/-- An illegal word is one that matches no row, and it is reported as it is (R74, R76). -/
theorem decode_invalidOpcode_iff (op bad : Word) :
    decode op = .invalidOpcode bad ↔ bad = op ∧ ∀ row ∈ opcodeRows, row.matchesWord op = false := by
  constructor
  · intro h
    refine ⟨eq_of_decode_invalidOpcode h, fun row hrow => Bool.eq_false_iff.2 fun hm => ?_⟩
    obtain ⟨i, hi⟩ := (decode_instr_iff_matchesWord op).2 ⟨row, hrow, hm⟩
    simp [h] at hi
  · rintro ⟨rfl, hnone⟩
    cases hd : decode bad with
    | instr i =>
      obtain ⟨row, hrow, hm⟩ := (decode_instr_iff_matchesWord bad).1 ⟨i, hd⟩
      simp [hnone row hrow] at hm
    | invalidOpcode op => rw [eq_of_decode_invalidOpcode hd]

/-- The row an instruction's word matches is the instruction's own (R74). -/
theorem matchesWord_encode_iff_mnemonic {row : OpcodeRow} (hrow : row ∈ opcodeRows) (i : Instr) :
    row.matchesWord (encode i) = true ↔ row.mnemonic = mnemonicOf i := by
  obtain ⟨own, hown, hname, hmatch⟩ := exists_row_matchesWord_encode i
  constructor
  · intro hm
    rw [opcodeRow_eq_of_matchesWord hrow hown hm hmatch, hname]
  · intro hm
    rwa [opcodeRow_eq_of_mnemonic hrow hown (hm.trans hname.symm)]

/-- Settles O3: a word that decodes is its instruction's encoding, so the row it matches is that instruction's. -/
theorem decodeFollowsTheOpcodeTable : Obligations.DecodeFollowsTheOpcodeTable := by
  refine fun op => ⟨decode_invalidOpcode_iff op, fun i h row hrow => ?_⟩
  rw [← encodeInvertsDecode op i h]
  exact matchesWord_encode_iff_mnemonic hrow i

/-- Settles O4. -/
theorem wordsOfTheSpecDecode : Obligations.WordsOfTheSpecDecode := by
  unfold Obligations.WordsOfTheSpecDecode
  decide

end Sys2Proof
end

section
/-! The step cycle (40_step_cycle.md R90 to R96): a slot that is closed, the fetch, the decoded instruction on the advanced state,
a jump to itself; the ADVANCE of a machine that has stopped; and the instruction that faults (60_exceptions.md R198). -/

namespace Sys2Proof.Machine

/-! ## One slot -/

/-- A slot is closed exactly on a faulted or waiting machine (R90). -/
theorem State.slotOpen_eq_false_iff (s : State) : s.slotOpen = false ↔ s.Faulted ∨ s.Waiting := by
  rw [Bool.eq_false_iff, Ne, s.slotOpen_iff, not_and_or, Bool.not_eq_false]

/-- Settles O6. -/
theorem closedSlotChangesNothing : Obligations.ClosedSlotChangesNothing := fun s h =>
  step_closed s (s.slotOpen_eq_false_iff.2 h)

/-- In an open slot a `PC` that cannot be fetched from is recorded and not advanced (R91). -/
theorem step_of_fetch_none {s : State} (ho : s.slotOpen = true) (hf : s.fetch = none) :
    step s = .next (s.raise .addressOutOfRange s.pc) := by
  simp [step, ho, hf]

/-- Settles O7: the range check of the two-byte read passes up to 4094 and fails from 4095 on. -/
theorem fetchReadsTwoBytesOrFaults : Obligations.FetchReadsTwoBytesOrFaults := fun s =>
  ⟨s.fetch_inRange, fun hpc hfault hwait =>
    step_of_fetch_none (s.slotOpen_iff.2 ⟨hfault, hwait⟩) (s.fetch_outOfRange hpc)⟩

/-- Settles O5. -/
theorem stepRunsTheDecodedInstruction : Obligations.StepRunsTheDecodedInstruction := fun s _ hfault hwait hpc hdec =>
  step_of_decode (s.slotOpen_iff.2 ⟨hfault, hwait⟩) (s.fetch_inRange hpc) hdec

/-- Settles O15: the jump writes back the `PC` that the fetch advanced. -/
theorem jumpToSelfChangesNothing : Obligations.JumpToSelfChangesNothing := by
  intro s nnn hfault hwait hpc hdec hself
  have htarget : zextAddr nnn = s.pc := BitVec.eq_of_toNat_eq ((zextAddr_toNat nnn).trans hself)
  calc step s
    _ = exec (.jp nnn) { s with pc := s.pc + 2 } := stepRunsTheDecodedInstruction s _ hfault hwait hpc hdec
    _ = .next { s with pc := zextAddr nnn } := rfl
    _ = .next s := by rw [htarget]

/-! ## An instruction that faults -/

/-- No effect but a fault touches the latch (R198). -/
theorem Effect.writes_fault {i : Instr} {s t : State} (e : Effect i s t) (hne : t.fault ≠ s.fault) :
    ∃ kind, t = s.raise kind (encode i) := by
  cases e with
  | raised kind => exact ⟨kind, rfl⟩
  | skipped cond => exact absurd (s.skipIf_fault cond) hne
  | _ => exact absurd rfl hne

/-- Settles O54. -/
theorem faultingInstructionHasNoOtherEffect : Obligations.FaultingInstructionHasNoOtherEffect := fun _ _ _ h hne =>
  (effect_of_exec h).writes_fault hne

/-! ## The ticks of an ADVANCE -/

/-- A timer counts down by 1 and stops at 0 (R175). -/
theorem countDown_toNat (t : Byte) : (countDown t).toNat = t.toNat - 1 := by
  unfold countDown
  split <;> bv_omega

/-- Counting down once and then `n` times is counting down `n + 1` times. -/
theorem ofNat_countDown_sub (t : Byte) (n : Nat) :
    BitVec.ofNat 8 ((countDown t).toNat - n) = BitVec.ofNat 8 (t.toNat - (n + 1)) := by
  rw [countDown_toNat, Nat.sub_sub, Nat.add_comm 1 n]

/-- `n` ticks count both timers down by `n`, not below 0 (R175). -/
theorem State.tickPhase_state (n : Nat) (s : State) :
    (s.tickPhase n).1 = { s with dt := BitVec.ofNat 8 (s.dt.toNat - n), st := BitVec.ofNat 8 (s.st.toNat - n) } := by
  induction n generalizing s with
  | zero => simp [State.tickPhase]
  | succ n ih =>
    change (s.tick.tickPhase n).1 = _
    rw [ih, State.tick_dt, State.tick_st, ofNat_countDown_sub, ofNat_countDown_sub]
    rfl

/-- The buzzer signal of tick `k + 1` in a row: sound while `ST` has not reached 0 by then (R176). -/
def tickSignal (st : Byte) (k : Nat) : Output := if k + 1 < st.toNat then .soundStart else .soundStop

theorem State.buzzer_tick (s : State) : s.tick.buzzer = tickSignal s.st 0 := by
  simp only [State.buzzer, tickSignal, State.tick_st, countDown_toNat]
  congr 1
  simp only [eq_iff_iff]; omega

theorem tickSignal_countDown (st : Byte) (k : Nat) : tickSignal (countDown st) k = tickSignal st (k + 1) := by
  simp only [tickSignal, countDown_toNat]
  congr 1
  simp only [eq_iff_iff]; omega

/-- `n` ticks emit one buzzer signal each, in order (R176). -/
theorem State.tickPhase_signals (n : Nat) (s : State) : (s.tickPhase n).2 = (List.range n).map (tickSignal s.st) := by
  induction n generalizing s with
  | zero => rfl
  | succ n ih =>
    have hrest : tickSignal s.tick.st = tickSignal s.st ∘ Nat.succ := funext (tickSignal_countDown s.st)
    calc (s.tickPhase (n + 1)).2
      _ = s.tick.buzzer :: (s.tick.tickPhase n).2 := rfl
      _ = tickSignal s.st 0 :: (List.range n).map (tickSignal s.st ∘ Nat.succ) := by rw [s.buzzer_tick, ih, hrest]
      _ = (List.range (n + 1)).map (tickSignal s.st) := by rw [List.range_succ_eq_map, List.map_cons, List.map_map]

/-- Ticks open and close no slot (R90, R175). -/
theorem State.slotOpen_tickPhase (n : Nat) (s : State) : (s.tickPhase n).1.slotOpen = s.slotOpen := by
  rw [s.tickPhase_state]
  rfl

/-- An ADVANCE of a machine whose slots are closed is its tick phase (R90). -/
theorem State.advanceBy_of_closed {s : State} (h : s.slotOpen = false) (n : Nat) : s.advanceBy n = .next (s.tickPhase n) :=
  (HostResult.andThen_eq_next ..).2
    ⟨_, _, [], rfl, State.slots_closed ((s.slotOpen_tickPhase n).trans h) _, (List.append_nil _).symm⟩

/-- Settles O44: no slot of a stopped machine opens, so what is left of the ADVANCE are its ticks. -/
theorem stoppedMachineOnlyTicks : Obligations.StoppedMachineOnlyTicks := by
  intro s n hstop
  rw [State.advanceBy_of_closed (s.slotOpen_eq_false_iff.2 hstop)]
  exact congrArg _ (Prod.ext (s.tickPhase_state n) (s.tickPhase_signals n))

end Sys2Proof.Machine
end

section
/-! Control transfer (41_control_flow.md R100 to R107): what RET, CALL, the jumps and the register skips answer, each said once,
and the return that comes back from a call. -/

namespace Sys2Proof.Machine

/-! ## Call and return -/

theorem exec_ret_underflow {s : State} (h : s.sp = 0) : exec .ret s = .next (s.raise .stackUnderflow (encode .ret)) :=
  if_pos h

theorem exec_ret_pops {s : State} (h : 1 ≤ s.sp.toNat ∧ s.sp.toNat ≤ 16) :
    exec .ret s = .next { s with sp := s.sp - 1, pc := s.stack[s.sp.toNat - 1]'(by omega) } := by
  have hne : s.sp ≠ 0 := fun h0 => by simp [h0] at h
  change execRet s = _
  rw [execRet, if_neg hne, s.popPc_of_legal h]

theorem exec_call_overflow {s : State} (nnn : Addr) (h : s.sp = 16) :
    exec (.call nnn) s = .next (s.raise .stackOverflow (encode (.call nnn))) :=
  if_pos h

theorem exec_call_pushes {s : State} (nnn : Addr) (h : s.sp.toNat < 16) :
    exec (.call nnn) s =
      .next { s with stack := s.stack.set s.sp.toNat s.pc, sp := s.sp + 1, pc := zextAddr nnn } := by
  have hne : s.sp ≠ 16 := fun h16 => by simp [h16] at h
  change execCall nnn s = _
  rw [execCall, if_neg hne, s.pushPc_of_lt h]
  rfl

/-- Settles O12: the push does not wrap in the 5 bits of `SP` (R26), so the pop reads the entry it has just written and gives back
the `SP` it started from. -/
theorem callThenReturnComesBack : Obligations.CallThenReturnComesBack := by
  intro s nnn p hsp
  have hpushed : (s.sp + 1).toNat = s.sp.toNat + 1 := by bv_omega
  have hlegal : 1 ≤ (s.sp + 1).toNat ∧ (s.sp + 1).toNat ≤ 16 := by omega
  refine ⟨_, exec_call_pushes nnn hsp, (exec_ret_pops hlegal).trans ?_⟩
  simp only [hpushed, Nat.add_sub_cancel, Vector.getElem_set_self, BitVec.add_sub_cancel]

/-- Settles O9. -/
theorem returnPopsOrUnderflows : Obligations.ReturnPopsOrUnderflows := by
  refine fun s => ⟨exec_ret_underflow, fun j hj => ?_⟩
  have hsp : s.sp - 1 = BitVec.ofNat 5 j.val := by bv_omega
  rw [exec_ret_pops (by omega), hsp]
  simp [hj]

/-- Settles O10. -/
theorem callPushesOrOverflows : Obligations.CallPushesOrOverflows := by
  refine fun s nnn => ⟨exec_call_overflow nnn, fun j hj => ?_⟩
  have hsp : s.sp + 1 = BitVec.ofNat 5 (j.val + 1) := by bv_omega
  rw [exec_call_pushes nnn (by omega), hsp]
  simp [hj, zextAddr]

/-! ## Jumps and skips -/

/-- Settles O13: the target of Bnnn is the sum in natural numbers. -/
theorem jumpsSetPc : Obligations.JumpsSetPc := by
  refine fun s nnn => ⟨rfl, ?_⟩
  have htarget : zextAddr nnn + zextByte (s.readV 0) = BitVec.ofNat 16 (nnn.toNat + (s.readV 0).toNat) := by
    rw [← jumpOffset_toNat, BitVec.ofNat_toNat, BitVec.setWidth_eq]
  rw [← htarget]
  rfl

/-- A skip, said with the condition of its rule (R103 to R106, R108). -/
theorem State.skipIf_of_iff (s : State) {c : Bool} {p : Prop} [Decidable p] (h : c = true ↔ p) :
    s.skipIf c = if p then { s with pc := s.pc + 2 } else s :=
  if_congr h rfl rfl

/-- Settles O14. -/
theorem registerSkipsAddTwo : Obligations.RegisterSkipsAddTwo := fun s _ _ _ =>
  ⟨congrArg _ (s.skipIf_of_iff beq_iff_eq), congrArg _ (s.skipIf_of_iff bne_iff_ne),
    congrArg _ (s.skipIf_of_iff beq_iff_eq), congrArg _ (s.skipIf_of_iff bne_iff_ne)⟩

end Sys2Proof.Machine
end

section
/-! Register loads, arithmetic, logic, shifts, random (42_load_alu.md R120 to R133): the exact result of each operation on bytes, what
an instruction that writes a register, or VF and a register, leaves to read, and the statements that follow. -/

namespace Sys2Proof.Machine

/-! ## Flag and result on bytes -/

theorem flagByte_decide (p : Prop) [Decidable p] : flagByte (decide p) = if p then 1 else 0 := by
  simp [flagByte]

theorem byte_add_eq_ofNat (a b : Byte) : a + b = BitVec.ofNat 8 ((a.toNat + b.toNat) % 256) := by bv_omega

theorem byte_sub_eq_ofNat (a b : Byte) : a - b = BitVec.ofNat 8 ((a.toNat + 256 - b.toNat) % 256) := by bv_omega

theorem byte_shiftLeft_one_eq_ofNat (a : Byte) : a <<< 1 = BitVec.ofNat 8 (a.toNat * 2 % 256) := by bv_omega

theorem byte_ushiftRight_one_eq_ofNat (a : Byte) : a >>> 1 = BitVec.ofNat 8 (a.toNat / 2) := by bv_omega

theorem flagByte_getLsbD_eq_ofNat (a : Byte) (k : Nat) : flagByte (a.getLsbD k) = BitVec.ofNat 8 (a.toNat / 2 ^ k % 2) := by
  rw [BitVec.getLsbD, Nat.testBit_eq_decide_div_mod_eq, flagByte_decide]
  rcases Nat.mod_two_eq_zero_or_one (a.toNat / 2 ^ k) with h | h <;> simp [h]

theorem shiftRightFlag_eq_ofNat (a : Byte) : shiftRightFlag a = BitVec.ofNat 8 (a.toNat % 2) := by
  rw [shiftRightFlag, flagByte_getLsbD_eq_ofNat, Nat.pow_zero, Nat.div_one]

theorem shiftLeftFlag_eq_ofNat (a : Byte) : shiftLeftFlag a = BitVec.ofNat 8 (a.toNat / 128) := by
  have hone : a.toNat / 128 < 2 := by have := a.isLt; omega
  rw [shiftLeftFlag, flagByte_getLsbD_eq_ofNat]
  exact congrArg _ (Nat.mod_eq_of_lt hone)

/-- Carry and sum (R126, R132). -/
theorem carryFlag_add_exact (a b : Byte) : 256 * (carryFlag a b).toNat + (a + b).toNat = a.toNat + b.toNat := by
  rw [carryFlag, flagByte_decide]
  split <;> bv_omega

/-- Difference and borrow, a borrow lending 256 (R127, R129, R132). -/
theorem noBorrowFlag_sub_exact (a b : Byte) :
    (a - b).toNat + b.toNat + 256 * (noBorrowFlag a b).toNat = a.toNat + 256 := by
  rw [noBorrowFlag, flagByte_decide]
  split <;> bv_omega

/-- The half and the bit shifted out below it (R128, R132). -/
theorem shiftRightFlag_exact (a : Byte) : 2 * (a >>> 1).toNat + (shiftRightFlag a).toNat = a.toNat := by
  rw [byte_ushiftRight_one_eq_ofNat, shiftRightFlag_eq_ofNat]
  bv_omega

/-- The double and the bit shifted out above it (R130, R132). -/
theorem shiftLeftFlag_exact (a : Byte) : 256 * (shiftLeftFlag a).toNat + (a <<< 1).toNat = 2 * a.toNat := by
  rw [byte_shiftLeft_one_eq_ofNat, shiftLeftFlag_eq_ofNat]
  bv_omega

/-! ## The instructions that write VF, then the result (R133), and the one that draws -/

theorem exec_addReg (x y : Nibble) (s : State) : exec (.addReg x y) s =
    .next (s.writeFlagThenResult x (carryFlag (s.readV x) (s.readV y)) (s.readV x + s.readV y)) := rfl

theorem exec_subReg (x y : Nibble) (s : State) : exec (.subReg x y) s =
    .next (s.writeFlagThenResult x (noBorrowFlag (s.readV x) (s.readV y)) (s.readV x - s.readV y)) := rfl

theorem exec_subn (x y : Nibble) (s : State) : exec (.subn x y) s =
    .next (s.writeFlagThenResult x (noBorrowFlag (s.readV y) (s.readV x)) (s.readV y - s.readV x)) := rfl

theorem exec_shr (x y : Nibble) (s : State) : exec (.shr x y) s =
    .next (s.writeFlagThenResult x (shiftRightFlag (s.readV x)) (s.readV x >>> 1)) := rfl

theorem exec_shl (x y : Nibble) (s : State) : exec (.shl x y) s =
    .next (s.writeFlagThenResult x (shiftLeftFlag (s.readV x)) (s.readV x <<< 1)) := rfl

/-- The byte drawn is the free value at `draws` (assumption log 4, R131). -/
theorem exec_rnd (x : Nibble) (kk : Byte) (s : State) : exec (.rnd x kk) s =
    .next (State.writeV { s with draws := s.draws + 1 } x (Config.randomByte s.draws &&& kk)) := rfl

/-! ## What the instruction leaves to read -/

section
variable {i : Instr} {s t : State} {x : Nibble} {flag flag' b b' : Byte}

theorem exec_writesRegister (h : exec i s = .next (s.writeV x b)) (hb : b = b') :
    ∃ t, exec i s = .next t ∧ t = { s with v := t.v } ∧ ∀ r, t.readV r = if r = x then b' else s.readV r :=
  ⟨_, h, rfl, hb ▸ s.readV_writeV x b⟩

theorem exec_writesRegisterBits {bits : Nat → Bool} (h : exec i s = .next (s.writeV x b)) (hb : ∀ k, b.getLsbD k = bits k) :
    ∃ t, exec i s = .next t ∧ t = { s with v := t.v } ∧ (∀ r, r ≠ x → t.readV r = s.readV r) ∧
      ∀ k, (t.readV x).getLsbD k = bits k := by
  obtain ⟨t, ht, hframe, hread⟩ := exec_writesRegister h rfl
  exact ⟨t, ht, hframe, fun r hr => (hread r).trans (if_neg hr), fun k => by rw [hread, if_pos rfl, hb]⟩

theorem exec_writesFlagAndResult (h : exec i s = .next (s.writeFlagThenResult x flag b)) (hflag : flag = flag') (hb : b = b') :
    ∃ t, exec i s = .next t ∧ t = { s with v := t.v } ∧
      ∀ r, t.readV r = if r = x then b' else if r = 15 then flag' else s.readV r :=
  ⟨_, h, rfl, hflag ▸ hb ▸ s.readV_writeFlagThenResult x flag b⟩

/-- For a destination other than VF both the flag and the result are there to read (R133). -/
theorem reads_of_exec_flagged (hx : x ≠ 15) (h : exec i s = .next (s.writeFlagThenResult x flag b))
    (ht : exec i s = .next t) : t.readV 15 = flag ∧ t.readV x = b := by
  obtain rfl : s.writeFlagThenResult x flag b = t := by simpa [h] using ht
  simp only [State.readV_writeFlagThenResult, if_neg hx.symm, if_true, and_self]

end

/-! ## The statements -/

/-- Settles O22: the instruction leaves flag and result apart, and on bytes the two are exact. -/
theorem flagAndResultAreExact : Obligations.FlagAndResultAreExact := by
  refine fun s t x y hx => ⟨fun h => ?_, fun h => ?_, fun h => ?_, fun h => ?_, fun h => ?_⟩
  · simp only [reads_of_exec_flagged hx (exec_addReg x y s) h, carryFlag_add_exact]
  · simp only [reads_of_exec_flagged hx (exec_subReg x y s) h, noBorrowFlag_sub_exact]
  · simp only [reads_of_exec_flagged hx (exec_subn x y s) h, noBorrowFlag_sub_exact]
  · simp only [reads_of_exec_flagged hx (exec_shr x y s) h, shiftRightFlag_exact]
  · simp only [reads_of_exec_flagged hx (exec_shl x y s) h, shiftLeftFlag_exact]

/-- Settles O16. -/
theorem loadsWriteOneRegister : Obligations.LoadsWriteOneRegister := fun _ _ _ _ =>
  ⟨exec_writesRegister rfl rfl, exec_writesRegister rfl rfl⟩

/-- Settles O17. -/
theorem addImmediateWraps : Obligations.AddImmediateWraps := fun s x kk =>
  exec_writesRegister rfl (byte_add_eq_ofNat (s.readV x) kk)

/-- Settles O18. -/
theorem logicIsBitwiseWithoutFlag : Obligations.LogicIsBitwiseWithoutFlag := fun _ _ _ =>
  ⟨exec_writesRegisterBits rfl fun _ => BitVec.getLsbD_or, exec_writesRegisterBits rfl fun _ => BitVec.getLsbD_and,
    exec_writesRegisterBits rfl fun _ => BitVec.getLsbD_xor⟩

/-- Settles O19. -/
theorem addReportsCarry : Obligations.AddReportsCarry := fun s x y =>
  exec_writesFlagAndResult (exec_addReg x y s) (flagByte_decide _) (byte_add_eq_ofNat _ _)

/-- Settles O20. -/
theorem subtractReportsNoBorrow : Obligations.SubtractReportsNoBorrow := fun s x y =>
  ⟨exec_writesFlagAndResult (exec_subReg x y s) (flagByte_decide _) (byte_sub_eq_ofNat _ _),
    exec_writesFlagAndResult (exec_subn x y s) (flagByte_decide _) (byte_sub_eq_ofNat _ _)⟩

/-- Settles O21. -/
theorem shiftsReportTheBitShiftedOut : Obligations.ShiftsReportTheBitShiftedOut := fun s x y =>
  ⟨exec_writesFlagAndResult (exec_shr x y s) (shiftRightFlag_eq_ofNat _) (byte_ushiftRight_one_eq_ofNat _),
    exec_writesFlagAndResult (exec_shl x y s) (shiftLeftFlag_eq_ofNat _) (byte_shiftLeft_one_eq_ofNat _)⟩

/-- Settles O23: a bit of the mask that is 0 is 0 in the conjunction, whatever the byte drawn. -/
theorem randomByteIsMasked : Obligations.RandomByteIsMasked := by
  refine fun s x kk => ⟨_, exec_rnd x kk s, rfl, State.readV_writeV _ x _, fun k hk => ?_⟩
  rw [State.readV_writeV, if_pos rfl, BitVec.getLsbD_and, hk, Bool.and_false]

end Sys2Proof.Machine
end

section
/-! Index register, loads and stores (43_index_memory.md R140 to R145): what a run of written bytes reads back as, what each load and
store answers in and out of range (R52), and the statements that follow. -/

namespace Sys2Proof.Machine

/-! ## The index sum, bytes written, bytes loaded -/

/-- The sum of R141. -/
theorem index_add_zextByte (i : Word) (b : Byte) : i + zextByte b = BitVec.ofNat 16 ((i.toNat + b.toNat) % 65536) := by
  rw [zextByte]
  bv_omega

/-- Hundreds, tens, ones (R143). -/
theorem bcdDigits_length (b : Byte) : (bcdDigits b).length = 3 := rfl

/-- Byte `k` of the bytes written reads back at `a + k` (R52). -/
theorem Memory.read_writeBytes_add (m : Memory) (a : Nat) {bs : List Byte} {k : Nat} (h : k < bs.length) :
    (m.writeBytes a bs).read (a + k) = bs[k] := by
  have hk : a ≤ a + k ∧ a + k < a + bs.length := by omega
  rw [Memory.read_writeBytes, if_pos hk, Nat.add_sub_cancel_left, List.getD_eq_getElem _ _ h]

/-- An address outside the bytes written reads as before (R52). -/
theorem Memory.read_writeBytes_outside (m : Memory) {a a' : Nat} {bs : List Byte} (h : a' < a ∨ a + bs.length ≤ a') :
    (m.writeBytes a bs).read a' = m.read a' := by
  rw [Memory.read_writeBytes, if_neg (by omega)]

/-- Registers `V[0]` to `V[x]` loaded from a run of bytes given by their positions (R145). -/
theorem State.readV_loadFirstRegs_range (s : State) (x : Nibble) (f : Nat → Byte) (r : Nibble) :
    (s.loadFirstRegs ((List.range (x.toNat + 1)).map f)).readV r = if r.toNat ≤ x.toNat then f r.toNat else s.readV r := by
  rw [State.readV_loadFirstRegs]
  split
  · next hle =>
    have hr : r.toNat < ((List.range (x.toNat + 1)).map f).length := by simp; omega
    rw [List.getD_eq_getElem _ _ hr, List.getElem_map, List.getElem_range]
  · next hgt => exact List.getD_eq_default _ _ (by simp; omega)

/-! ## What the instructions answer -/

theorem exec_ldB_inRange {s : State} (x : Nibble) (h : s.i.toNat + 2 ≤ 4095) :
    exec (.ldB x) s = .next { s with mem := s.mem.writeBytes s.i.toNat (bcdDigits (s.readV x)) } := by
  have hlen := bcdDigits_length (s.readV x)
  change execLdB x s = _
  rw [execLdB, s.memWrite_inRange s.i _ (.inr (by omega)), orAddressFault_some]

theorem exec_ldB_outOfRange {s : State} (x : Nibble) (h : s.i.toNat + 2 > 4095) :
    exec (.ldB x) s = .next (s.raise .addressOutOfRange (encode (.ldB x))) := by
  have hlen := bcdDigits_length (s.readV x)
  change execLdB x s = _
  rw [execLdB, s.memWrite_outOfRange s.i _ (by omega) (by omega), orAddressFault_none]

theorem exec_stRegs_outOfRange {s : State} {x : Nibble} (h : s.i.toNat + x.toNat > 4095) :
    exec (.stRegs x) s = .next (s.raise .addressOutOfRange (encode (.stRegs x))) := by
  have hlen := s.firstRegs_length x
  change execStRegs x s = _
  rw [execStRegs, s.memWrite_outOfRange s.i _ (by omega) (by omega), orAddressFault_none]

theorem exec_ldRegs_inRange {s : State} {x : Nibble} (h : s.i.toNat + x.toNat ≤ 4095) :
    exec (.ldRegs x) s =
      .next (s.loadFirstRegs ((List.range (x.toNat + 1)).map fun k => s.mem.read (s.i.toNat + k))) := by
  change execLdRegs x s = _
  rw [execLdRegs, s.memRead_inRange s.i _ (by omega), orAddressFault_some]

theorem exec_ldRegs_outOfRange {s : State} {x : Nibble} (h : s.i.toNat + x.toNat > 4095) :
    exec (.ldRegs x) s = .next (s.raise .addressOutOfRange (encode (.ldRegs x))) := by
  change execLdRegs x s = _
  rw [execLdRegs, s.memRead_outOfRange s.i _ (by omega) (by omega), orAddressFault_none]

/-! ## The statements -/

/-- Settles O25: the digits are the three bytes written at `I`. -/
theorem bcdStoresThreeDigits : Obligations.BcdStoresThreeDigits := by
  intro s x
  have digit {k : Nat} (hk : k < 3) := s.mem.read_writeBytes_add s.i.toNat (bs := bcdDigits (s.readV x)) hk
  exact ⟨fun h => ⟨_, exec_ldB_inRange x h, rfl, digit (k := 0) (by decide), digit (k := 1) (by decide),
      digit (k := 2) (by decide), fun _ ha => s.mem.read_writeBytes_outside (ha.imp_right Nat.succ_le_of_lt)⟩,
    exec_ldB_outOfRange x⟩

/-- Settles O26. -/
theorem registerDumpStoresAscending : Obligations.RegisterDumpStoresAscending := by
  refine fun s x => ⟨fun h => ⟨_, exec_stRegs_inRange h, rfl, fun r hr => ?_, fun a ha => ?_⟩, exec_stRegs_outOfRange⟩
  · exact s.mem.read_writeBytes_firstRegs s.i.toNat s hr
  · have hlen := s.firstRegs_length x
    exact s.mem.read_writeBytes_outside (by omega)

/-- Settles O27. -/
theorem registerLoadReadsAscending : Obligations.RegisterLoadReadsAscending := fun s x =>
  ⟨fun h => ⟨_, exec_ldRegs_inRange h, rfl, s.readV_loadFirstRegs_range x _⟩, exec_ldRegs_outOfRange⟩

/-- Settles O28: neither instruction writes `I`, so the load reads the bytes that the dump wrote. -/
theorem dumpThenLoadRestoresRegisters : Obligations.DumpThenLoadRestoresRegisters := by
  refine fun s x w h =>
    ⟨_, _, exec_stRegs_inRange h, exec_ldRegs_inRange h, fun r hr => ?_, fun r hr => ?_, fun _ => rfl⟩
  · rw [State.readV_loadFirstRegs_range, if_pos hr]
    exact s.mem.read_writeBytes_firstRegs s.i.toNat s hr
  · rw [State.readV_loadFirstRegs_range, if_neg (Nat.not_le_of_lt hr)]
    rfl

/-- Settles O24. -/
theorem indexInstructionsWriteOnlyI : Obligations.IndexInstructionsWriteOnlyI := fun s _ x =>
  ⟨rfl, congrArg (Host.Outcome.next <| s.writeI ·) (index_add_zextByte s.i (s.readV x)), rfl⟩

end Sys2Proof.Machine
end

section
/-! Clear screen and sprite draw (44_graphics.md R150 to R154): what a draw answers in and out of range (R52), the pixels it toggles
and its collision, said by the pixels the sprite covers, and the statements that follow. -/

namespace Sys2Proof.Machine

/-! ## The sprite a draw reads -/

/-- The bytes `rows` of R152: the `n` bytes at `I`. -/
def State.spriteRows (s : State) (n : Nibble) : List Byte :=
  (List.range n.toNat).map fun k => s.mem.read (s.i.toNat + k)

/-- The framebuffer and the collision a draw in range ends with (R152). -/
def State.drawn (s : State) (x y n : Nibble) : Framebuffer × Bool :=
  drawSprite s.fb (s.spriteRows n) (s.readV x).toNat (s.readV y).toNat

theorem exec_drw_inRange {s : State} {n : Nibble} (x y : Nibble) (h : n = 0 ∨ s.i.toNat + n.toNat - 1 ≤ 4095) :
    exec (.drw x y n) s = .next (s.afterDraw (s.drawn x y n)) := by
  change execDrw x y n s = _
  rw [execDrw, s.memRead_inRange s.i _ (by bv_omega), orAddressFault_some]
  rfl

theorem exec_drw_outOfRange {s : State} {n : Nibble} (x y : Nibble) (h : n ≠ 0 ∧ s.i.toNat + n.toNat - 1 > 4095) :
    exec (.drw x y n) s = .next (s.raise .addressOutOfRange (encode (.drw x y n))) := by
  change execDrw x y n s = _
  rw [execDrw, s.memRead_outOfRange s.i _ (by bv_omega) (by bv_omega), orAddressFault_none]

theorem State.spriteRows_length (s : State) (n : Nibble) : (s.spriteRows n).length = n.toNat := by
  simp [State.spriteRows]

/-- A sprite has at most 15 rows, fewer than the screen: no pixel is toggled twice. -/
theorem State.spriteRows_length_le (s : State) (n : Nibble) : (s.spriteRows n).length ≤ 32 := by
  rw [s.spriteRows_length]
  omega

theorem State.spriteRows_getD (s : State) {n : Nibble} {r : Nat} (h : r < n.toNat) :
    (s.spriteRows n).getD r 0 = s.mem.read (s.i.toNat + r) := by
  simp [State.spriteRows, h]

/-! ## Pixels and collision -/

section
variable {s : State} {x y n : Nibble} {px : BitVec 6} {py : BitVec 5}

theorem State.mem_spriteTargets_iff_covers :
    (px, py) ∈ spriteTargets (s.spriteRows n) (s.readV x).toNat (s.readV y).toNat ↔ s.SpriteCovers x y n px py := by
  rw [mem_spriteTargets, s.spriteRows_length, State.SpriteCovers]
  refine exists_congr fun r => exists_congr fun c => and_congr_right fun hr => ?_
  rw [s.spriteRows_getD hr]

theorem State.drawn_pixel_of_covers (h : s.SpriteCovers x y n px py) :
    (s.drawn x y n).1.pixel px py = !s.fb.pixel px py := by
  rw [State.drawn, drawSprite_pixel _ _ _ _ (s.spriteRows_length_le n), if_pos (State.mem_spriteTargets_iff_covers.2 h)]

theorem State.drawn_pixel_of_not_covers (h : ¬ s.SpriteCovers x y n px py) :
    (s.drawn x y n).1.pixel px py = s.fb.pixel px py := by
  rw [State.drawn, drawSprite_pixel _ _ _ _ (s.spriteRows_length_le n), if_neg (mt State.mem_spriteTargets_iff_covers.1 h)]

theorem State.drawn_collides_iff :
    (s.drawn x y n).2 = true ↔ ∃ px py, s.SpriteCovers x y n px py ∧ s.fb.pixel px py = true := by
  rw [State.drawn, drawSprite_collision _ _ _ _ (s.spriteRows_length_le n), Prod.exists]
  simp only [State.mem_spriteTargets_iff_covers]

/-- A pixel the draw turned lit is a covered one that is lit after it. -/
theorem State.covers_and_lit_iff_turnedLit :
    s.SpriteCovers x y n px py ∧ (s.drawn x y n).1.pixel px py = true ↔
      s.fb.pixel px py = false ∧ (s.drawn x y n).1.pixel px py = true := by
  refine and_congr_left fun hlit => ?_
  by_cases hc : s.SpriteCovers x y n px py
  · simpa [hc, State.drawn_pixel_of_covers hc] using hlit
  · simpa [hc, State.drawn_pixel_of_not_covers hc] using hlit

end

/-! ## After a draw -/

theorem State.readV_vf_afterDraw (s : State) (d : Framebuffer × Bool) :
    (s.afterDraw d).readV 15 = if d.2 = true then 1 else 0 :=
  s.readV_afterDraw d 15

theorem State.readV_vf_afterDraw_eq_one_iff (s : State) (d : Framebuffer × Bool) :
    (s.afterDraw d).readV 15 = 1 ↔ d.2 = true := by
  rw [s.readV_vf_afterDraw]
  simp

/-- A draw at coordinates not held in VF leaves the next one the same sprite and position (R154). -/
theorem State.spriteCovers_afterDraw {s : State} {x y : Nibble} (hx : x ≠ 15) (hy : y ≠ 15) (d : Framebuffer × Bool)
    (n : Nibble) (px : BitVec 6) (py : BitVec 5) :
    (s.afterDraw d).SpriteCovers x y n px py ↔ s.SpriteCovers x y n px py := by
  rw [State.SpriteCovers, s.readV_afterDraw, s.readV_afterDraw, if_neg hx, if_neg hy]
  rfl

/-- Two toggles of the same pixels restore the framebuffer (R154). -/
theorem State.drawn_afterDraw_fb (s : State) {x y : Nibble} (hx : x ≠ 15) (hy : y ≠ 15) (n : Nibble) :
    ((s.afterDraw (s.drawn x y n)).drawn x y n).1 = s.fb := by
  refine Framebuffer.ext_pixel _ _ fun px py => ?_
  have hsame := State.spriteCovers_afterDraw (s := s) hx hy (s.drawn x y n) n px py
  by_cases hc : s.SpriteCovers x y n px py
  · rw [State.drawn_pixel_of_covers (hsame.2 hc), State.afterDraw_fb, State.drawn_pixel_of_covers hc, Bool.not_not]
  · rw [State.drawn_pixel_of_not_covers (mt hsame.1 hc), State.afterDraw_fb, State.drawn_pixel_of_not_covers hc]

/-- The second of two identical draws collides exactly where the first turned a pixel lit (R154). -/
theorem State.drawn_afterDraw_collides_iff (s : State) {x y : Nibble} (hx : x ≠ 15) (hy : y ≠ 15) (n : Nibble) :
    ((s.afterDraw (s.drawn x y n)).drawn x y n).2 = true ↔
      ∃ px py, s.fb.pixel px py = false ∧ (s.drawn x y n).1.pixel px py = true := by
  simp only [State.drawn_collides_iff, State.spriteCovers_afterDraw hx hy, State.afterDraw_fb,
    State.covers_and_lit_iff_turnedLit]

theorem State.afterDraw_afterDraw_of_fb {s : State} {d d' : Framebuffer × Bool} (h : d'.1 = s.fb) :
    (s.afterDraw d).afterDraw d' = { s with v := ((s.afterDraw d).afterDraw d').v } := by
  rw [State.afterDraw, h]
  rfl

/-! ## The statements -/

/-- Settles O31. -/
theorem drawTogglesTheSpritePixels : Obligations.DrawTogglesTheSpritePixels := by
  refine fun s x y n => ⟨fun h => ⟨_, exec_drw_inRange x y h, rfl, fun _ _ => State.drawn_pixel_of_covers,
    fun _ _ => State.drawn_pixel_of_not_covers, fun hlit => ?_, fun hunlit => ?_, fun r hr => ?_⟩, exec_drw_outOfRange x y⟩
  · exact (s.readV_vf_afterDraw_eq_one_iff _).2 (State.drawn_collides_iff.2 hlit)
  · have hnone : ¬ (s.drawn x y n).2 = true :=
      mt State.drawn_collides_iff.1 fun ⟨px, py, hc, hlit⟩ => by simp [hunlit px py hc] at hlit
    rw [s.readV_vf_afterDraw, if_neg hnone]
  · rw [s.readV_afterDraw, if_neg hr]

/-- Settles O32: the second draw toggles the same pixels back, and every pixel it finds lit under the sprite is one the first draw
turned lit. -/
theorem drawTwiceRestoresTheScreen : Obligations.DrawTwiceRestoresTheScreen := by
  refine fun s x y n hx hy h => ⟨_, _, exec_drw_inRange x y h, exec_drw_inRange x y h,
    State.afterDraw_afterDraw_of_fb (s.drawn_afterDraw_fb hx hy n), ?_, ?_⟩
  · rw [State.readV_vf_afterDraw]
    exact ite_eq_or_eq _ _ _
  · rw [State.readV_vf_afterDraw_eq_one_iff, s.drawn_afterDraw_collides_iff hx hy n]
    rfl

/-- Settles O30. -/
theorem clearScreenUnlightsEveryPixel : Obligations.ClearScreenUnlightsEveryPixel := fun s =>
  ⟨⟨s.clearScreen, rfl, rfl, blankScreen_pixel⟩, ⟨s.clearScreen, rfl, rfl, blankScreen_pixel⟩⟩

end Sys2Proof.Machine
end

section
/-! Timers and keypad (45_timers_input.md R160 to R166): what the key skips look up, the timer copies and the wait for a key, each
said once, and the two-run statement that a program reads neither `ST` nor `SPEED` nor the scheduler baseline (R166). -/

namespace Sys2Proof.Machine

open Host (Outcome)

/-! ## Keys, timers, the wait -/

/-- A key skip for an index in range is a skip on the key's level (R160, R161). -/
theorem State.skipIfKey_index {s : State} {x : Nibble} {k : Fin 16} (hk : (s.readV x).toNat = k.val) (level : Bool) (op : Word) :
    s.skipIfKey x level op = s.skipIf (s.key[k] == level) := by
  have hkey : s.keyAt (s.readV x) = some s.key[k] := by
    rw [s.keyAt_legal _ (by omega)]
    simp [hk]
  rw [State.skipIfKey, hkey]

/-- A key skip for a byte that is no key index faults (R160, R195). -/
theorem State.skipIfKey_noIndex {s : State} {x : Nibble} (h : (s.readV x).toNat > 15) (level : Bool) (op : Word) :
    s.skipIfKey x level op = s.raise .keyIndexOutOfRange op := by
  rw [State.skipIfKey, s.keyAt_illegal _ h]

/-- Settles O33. -/
theorem keySkipsReadTheLatch : Obligations.KeySkipsReadTheLatch := by
  refine fun s x => ⟨fun k hk => ?_, fun h => ⟨?_, ?_⟩⟩
  · have skips (level : Bool) (op : Word) :
        s.skipIfKey x level op = if s.key[k] = level then { s with pc := s.pc + 2 } else s :=
      (State.skipIfKey_index hk level op).trans (s.skipIf_of_iff beq_iff_eq)
    exact ⟨congrArg _ (skips true _), congrArg _ (skips false _)⟩
  · exact congrArg _ (State.skipIfKey_noIndex h true _)
  · exact congrArg _ (State.skipIfKey_noIndex h false _)

/-- Settles O34. -/
theorem timerInstructionsCopyAByte : Obligations.TimerInstructionsCopyAByte := fun _ _ =>
  ⟨exec_writesRegister rfl rfl, rfl, rfl⟩

/-- Settles O35: the state that waits is one of R90's closed slots. -/
theorem waitForKeyCompletesAndWaits : Obligations.WaitForKeyCompletesAndWaits := fun _ _ =>
  ⟨rfl, closedSlotChangesNothing _ (.inr rfl)⟩

/-! ## What a program cannot read

`s.withUnseenOf u` runs over the states that differ from `s` only where a program cannot look, so the second of two runs can start
from it: there every read the model does answers as in `s`, and only the states it builds have to be compared. -/

/-- `s` with the `ST`, the `SPEED` and the scheduler baseline of `u`. -/
def State.withUnseenOf (s u : State) : State :=
  { s with st := u.st, speed := u.speed, hasBaseline := u.hasBaseline, lastTime := u.lastTime }

theorem State.sameToProgram_iff (s t : State) : s.SameToProgram t ↔ t = s.withUnseenOf t := .rfl

/-- Where the first run completes, so does the second, in a state a program cannot tell from the first's. -/
def AnswersAlike (first second : Outcome State Fault Refusal) : Prop :=
  ∀ t, first = .next t → ∃ t', second = .next t' ∧ t.SameToProgram t'

theorem AnswersAlike.next {t t' : State} (h : t.SameToProgram t') : AnswersAlike (.next t) (.next t') := by
  rintro _ ⟨⟩
  exact ⟨t', rfl, h⟩

theorem AnswersAlike.stop (f : Fault) (second : Outcome State Fault Refusal) : AnswersAlike (.fault f) second := nofun

/-- Both runs take the same branch. -/
theorem AnswersAlike.ite {c : Prop} [Decidable c] {a b a' b' : Outcome State Fault Refusal} (ha : AnswersAlike a a')
    (hb : AnswersAlike b b') : AnswersAlike (if c then a else b) (if c then a' else b') := by
  split
  · exact ha
  · exact hb

/-- In an open slot a fetched word that matches no row is recorded, after the advance (R92, R93). -/
theorem step_of_decode_invalidOpcode {s : State} {op bad : Word} (ho : s.slotOpen = true) (hf : s.fetch = some op)
    (hd : decode op = .invalidOpcode bad) : step s = .next (s.advancePc.raise .invalidOpcode bad) := by
  simp [step, ho, hf, hd]

section
variable (s u : State)

/-! ### The operations that change more than a field -/

theorem State.popPc_withUnseenOf : (s.withUnseenOf u).popPc = s.popPc.map (·.withUnseenOf u) := by
  rw [State.popPc, State.popPc, apply_dite (Option.map _)]
  rfl

theorem State.pushPc_withUnseenOf : (s.withUnseenOf u).pushPc = s.pushPc.map (·.withUnseenOf u) := by
  rw [State.pushPc, State.pushPc, apply_dite (Option.map _)]
  rfl

theorem State.memWrite_withUnseenOf (a : Word) (bs : List Byte) :
    (s.withUnseenOf u).memWrite a bs = (s.memWrite a bs).map (·.withUnseenOf u) := by
  rw [State.memWrite, State.memWrite, apply_ite (Option.map _)]
  rfl

theorem State.sameToProgram_skipIf (cond : Bool) : (s.skipIf cond).SameToProgram ((s.withUnseenOf u).skipIf cond) := by
  cases cond <;> rfl

theorem State.sameToProgram_skipIfKey (x : Nibble) (level : Bool) (op : Word) :
    (s.skipIfKey x level op).SameToProgram ((s.withUnseenOf u).skipIfKey x level op) := by
  by_cases h : (s.readV x).toNat > 15
  · rw [State.skipIfKey_noIndex h, State.skipIfKey_noIndex (s := s.withUnseenOf u) h]
    rfl
  · have hk : (s.readV x).toNat = (⟨(s.readV x).toNat, by omega⟩ : Fin 16).val := rfl
    rw [State.skipIfKey_index hk, State.skipIfKey_index (s := s.withUnseenOf u) hk]
    exact s.sameToProgram_skipIf u _

/-- Both runs have the same access, so both fault or both go on with what it gave. -/
theorem sameToProgram_orAddressFault {α : Type} (access : Option α) (op : Word) {goOn goOn' : α → State}
    (h : ∀ r, (goOn r).SameToProgram (goOn' r)) :
    (orAddressFault access op s goOn).SameToProgram (orAddressFault access op (s.withUnseenOf u) goOn') := by
  cases access with
  | none => rfl
  | some r => exact h r

theorem State.sameToProgram_store (a : Word) (bs : List Byte) (op : Word) :
    (orAddressFault (s.memWrite a bs) op s fun t => t).SameToProgram
      (orAddressFault ((s.withUnseenOf u).memWrite a bs) op (s.withUnseenOf u) fun t => t) := by
  rw [s.memWrite_withUnseenOf u]
  cases s.memWrite a bs with
  | none => rfl
  | some t => rfl

/-! ### Two runs of an instruction -/

theorem execRet_alike : AnswersAlike (execRet s) (execRet (s.withUnseenOf u)) := by
  unfold execRet
  rw [s.popPc_withUnseenOf u]
  refine .ite (.next rfl) ?_
  cases s.popPc with
  | none => exact .stop _ _
  | some t => exact .next rfl

theorem execCall_alike (nnn : Addr) : AnswersAlike (execCall nnn s) (execCall nnn (s.withUnseenOf u)) := by
  unfold execCall
  rw [s.pushPc_withUnseenOf u]
  refine .ite (.next rfl) ?_
  cases s.pushPc with
  | none => exact .stop _ _
  | some t => exact .next rfl

/-- Row by row: what an instruction reads is the same in both runs, and so is what it writes, for Fx18 into `ST` too. -/
theorem exec_alike (i : Instr) : AnswersAlike (exec i s) (exec i (s.withUnseenOf u)) := by
  cases i with
  | ret => exact execRet_alike s u
  | call nnn => exact execCall_alike s u nnn
  | seImm | sneImm | seReg | sneReg => exact .next (s.sameToProgram_skipIf u _)
  | skp x => exact .next (s.sameToProgram_skipIfKey u x _ _)
  | sknp x => exact .next (s.sameToProgram_skipIfKey u x _ _)
  | ldB x => exact .next (s.sameToProgram_store u _ _ _)
  | stRegs x => exact .next (s.sameToProgram_store u _ _ _)
  | ldRegs x => exact .next (sameToProgram_orAddressFault s u _ _ fun _ => rfl)
  | drw x y n => exact .next (sameToProgram_orAddressFault s u _ _ fun _ => rfl)
  | _ => exact .next rfl

/-- The four ways a step can go are told apart by what a program can read (R90 to R93). -/
theorem step_alike : AnswersAlike (step s) (step (s.withUnseenOf u)) := by
  rcases step_cases s with ⟨hc, h⟩ | ⟨ho, hf, h⟩ | ⟨op, bad, ho, hf, hd, h⟩ | ⟨op, i, ho, hf, hd, h⟩
  · rw [h, step_closed (s.withUnseenOf u) hc]
    exact .next rfl
  · rw [h, step_of_fetch_none (s := s.withUnseenOf u) ho hf]
    exact .next rfl
  · rw [h, step_of_decode_invalidOpcode (s := s.withUnseenOf u) ho hf hd]
    exact .next rfl
  · rw [h, step_of_decode (s := s.withUnseenOf u) ho hf hd]
    exact exec_alike s.advancePc u i

end

/-- Settles O55. -/
theorem programCannotSeeSoundSpeedOrClock : Obligations.ProgramCannotSeeSoundSpeedOrClock := by
  intro s s' t h
  rw [(s.sameToProgram_iff s').1 h]
  exact step_alike s s' t

end Sys2Proof.Machine
end

section
/-! The host operations (46_host_operations.md): the phases of an ADVANCE (R174 to R177, R181), a LOAD (R171), the key events (R172,
R173), the speed and the pixel query (R178, R179). -/

namespace Sys2Proof.Machine

/-! ## The tick count -/

/-- The integer `round(q)` of R174, before the minimum of one tick is applied; `up` rounds a tie. -/
def nearestInt (q : Rat) (up : Bool) : Int :=
  if isTie q then q.floor + (if up then 1 else 0) else (q + 1 / 2).floor

theorem roundedTicks_eq (q : Rat) (up : Bool) : roundedTicks q up = max 1 (nearestInt q up).toNat := rfl

/-- A tie is half away from both of its neighbours, and any other `q` is rounded as Mathlib's `round` does. -/
theorem abs_nearestInt_sub_le (q : Rat) (up : Bool) : |(nearestInt q up : Rat) - q| ≤ 1 / 2 := by
  unfold nearestInt
  split
  · next htie =>
    have hhalf : q - q.floor = 1 / 2 := of_decide_eq_true htie
    cases up with
    | false =>
      rw [if_neg Bool.false_ne_true, add_zero, abs_le]
      constructor <;> linarith
    | true =>
      rw [if_pos rfl, Int.cast_add, Int.cast_one, abs_le]
      constructor <;> linarith
  · rw [abs_sub_comm, show (q + 1 / 2).floor = round q from (round_eq q).symm]
    exact abs_sub_round q

theorem one_le_roundedTicks (q : Rat) (up : Bool) : 1 ≤ roundedTicks q up := le_max_left ..

/-- Up to half a tick the minimum of one tick decides (R174). -/
theorem roundedTicks_of_le_half {q : Rat} (h : q ≤ 1 / 2) (up : Bool) : roundedTicks q up = 1 := by
  have hnear := (abs_le.1 (abs_nearestInt_sub_le q up)).2
  have hle : nearestInt q up ≤ 1 := by
    have : (nearestInt q up : Rat) ≤ 1 := by linarith
    exact_mod_cast this
  rw [roundedTicks_eq]
  omega

/-- From half a tick on the minimum of one tick costs no accuracy: it only moves `round(1/2) = 0` to the other side of its tie
(R174). -/
theorem abs_roundedTicks_sub_le {q : Rat} (h : 1 / 2 ≤ q) (up : Bool) : |(roundedTicks q up : Rat) - q| ≤ 1 / 2 := by
  have hnear := abs_nearestInt_sub_le q up
  rw [roundedTicks_eq]
  by_cases hpos : 1 ≤ nearestInt q up
  · have hmax : ((max 1 (nearestInt q up).toNat : Nat) : Int) = nearestInt q up := by omega
    rwa [← Int.cast_natCast, hmax]
  · have hzero : (nearestInt q up : Rat) ≤ 0 := Int.cast_nonpos.2 (by omega)
    have hmax : max 1 (nearestInt q up).toNat = 1 := by omega
    have hq : q = 1 / 2 := le_antisymm (by linarith [(abs_le.1 hnear).1]) h
    rw [hmax, hq]
    norm_num

/-- An ADVANCE whose time does not run backwards records its time and performs the ticks and slots of its tick count (R174,
R184). -/
theorem State.advance_of_forward {s : State} {now : Time} (h : s.hasBaseline = true → s.lastTime ≤ now) :
    s.advance now = (s.withBaseline now).advanceBy (s.tickCount now) := by
  refine if_neg fun hback => ?_
  obtain ⟨hbase, hlt⟩ := Bool.and_eq_true_iff.1 hback
  exact not_lt.2 (h hbase) (of_decide_eq_true hlt)

/-- Settles O40. -/
theorem tickCountIsTheNearestButAtLeastOne : Obligations.TickCountIsTheNearestButAtLeastOne := fun s now h =>
  ⟨s.tickCount now, (s.withBaseline now).draws, s.elapsedTicks now, rfl, State.advance_of_forward h,
    one_le_roundedTicks _ _, fun hq => roundedTicks_of_le_half hq _, fun hq => abs_roundedTicks_sub_le hq _⟩

/-! ## Ticks, then slots -/

/-- Settles O41: the ticks leave `SPEED` as it was, so the quota read after them is the one before. -/
theorem advanceTicksThenRunsItsQuota : Obligations.AdvanceTicksThenRunsItsQuota := by
  intro s n
  have hspeed : (s.tickPhase n).1.speed = s.speed := by rw [s.tickPhase_state]
  calc s.advanceBy n
    _ = HostResult.andThen (.next ((s.tickPhase n).1, (s.tickPhase n).2)) (State.slots (n * (s.tickPhase n).1.speed)) := rfl
    _ = _ := by rw [hspeed, s.tickPhase_state, s.tickPhase_signals]; rfl

/-- `k + 1` slots complete exactly when the first step does and `k` slots complete from there (R177). -/
theorem State.slots_succ_completes (k : Nat) (s t : State) :
    (∃ out, s.slots (k + 1) = .next (t, out)) ↔ ∃ u, step s = .next u ∧ ∃ out, u.slots k = .next (t, out) := by
  constructor
  · rintro ⟨out, h⟩
    obtain ⟨u, o₁, o₂, hslot, hrest, -⟩ := (HostResult.andThen_eq_next ..).1 h
    exact ⟨u, ((s.slot_eq_next u o₁).1 hslot).1, o₂, hrest⟩
  · rintro ⟨u, hstep, o₂, hrest⟩
    exact ⟨_, (HostResult.andThen_eq_next ..).2 ⟨u, _, o₂, (s.slot_eq_next u _).2 ⟨hstep, rfl⟩, hrest, rfl⟩⟩

/-- A run of `k + 1` steps completes exactly when its first step does and the run of `k` steps from there does. -/
theorem run_succ_eq_next (M : Host.Core) (k : Nat) (s t : M.State) :
    M.run (k + 1) s = .next t ↔ ∃ u, M.step s = .next u ∧ M.run k u = .next t := by
  rw [Host.Core.run]
  cases M.step s with
  | next u => simp
  | fault r => simp
  | refused r => simp

/-- Settles O42, by induction on the number of slots. -/
theorem slotsAreSteps : Obligations.SlotsAreSteps := by
  intro k
  induction k with
  | zero =>
    refine fun s t => ⟨?_, ?_⟩
    · rintro ⟨out, ⟨⟩⟩
      rfl
    · rintro ⟨⟩
      exact ⟨[], rfl⟩
  | succ k ih =>
    intro s t
    refine (s.slots_succ_completes k t).trans (.trans ?_ (run_succ_eq_next core k s t).symm)
    exact exists_congr fun u => and_congr_right fun _ => ih u t

/-! ## The report of a fault -/

/-- What a phase of an ADVANCE reports, by the latch before and after it: nothing and the latch kept, or the one record newly
set in a clear latch (R181). -/
def ReportsNewFault (before after : Option FaultRecord) (reports : List Output) : Prop :=
  (reports = [] ∧ after = before) ∨ (before = none ∧ ∃ f, after = some f ∧ reports = [.faultReport f.kind f.info])

/-- Two phases in a row report as one does: what the first has set the second keeps. -/
theorem ReportsNewFault.trans {a b c : Option FaultRecord} {r₁ r₂ : List Output} (h₁ : ReportsNewFault a b r₁)
    (h₂ : ReportsNewFault b c r₂) : ReportsNewFault a c (r₁ ++ r₂) := by
  rcases h₁ with ⟨rfl, rfl⟩ | ⟨ha, f, rfl, rfl⟩
  · exact h₂
  · rcases h₂ with ⟨rfl, rfl⟩ | ⟨hb, -⟩
    · exact .inr ⟨ha, f, rfl, rfl⟩
    · cases hb

theorem slotReport_of_clear {s : State} (h : s.fault = none) (t : State) :
    ReportsNewFault s.fault t.fault (slotReport s t) := by
  unfold slotReport
  rw [h]
  cases t.fault with
  | none => exact .inl ⟨rfl, rfl⟩
  | some f => exact .inr ⟨rfl, f, rfl, rfl⟩

/-- A slot reports the fault it sets; a faulted machine's slot is closed and sets none (R90, R181). -/
theorem State.slot_reports {s t : State} {out : List Output} (h : s.slot = .next (t, out)) :
    ReportsNewFault s.fault t.fault out := by
  by_cases hs : s.fault = none
  · obtain ⟨-, rfl⟩ := (s.slot_eq_next t out).1 h
    exact slotReport_of_clear hs t
  · rw [State.slot_closed (State.slotOpen_of_faulted hs)] at h
    cases h
    exact .inl ⟨rfl, rfl⟩

theorem State.slots_reports (k : Nat) {s t : State} {out : List Output} (h : s.slots k = .next (t, out)) :
    ReportsNewFault s.fault t.fault out := by
  induction k generalizing s out with
  | zero =>
    cases h
    exact .inl ⟨rfl, rfl⟩
  | succ k ih =>
    obtain ⟨u, o₁, o₂, hslot, hrest, rfl⟩ := (HostResult.andThen_eq_next ..).1 h
    exact (State.slot_reports hslot).trans (ih hrest)

/-- Settles O43: the ticks give the signals and keep the latch, the slots give the report. -/
theorem advanceReportsAFaultOnce : Obligations.AdvanceReportsAFaultOnce := by
  intro s t n out h
  rw [advanceTicksThenRunsItsQuota] at h
  obtain ⟨_, _, reports, ⟨⟩, hslots, rfl⟩ := (HostResult.andThen_eq_next ..).1 h
  have hsignals := s.tickPhase_outputs n
  rw [s.tickPhase_signals] at hsignals
  have hreports := State.slots_reports _ hslots
  exact ⟨_, reports, rfl, by simp, hsignals, hreports⟩

/-! ## LOAD -/

/-- After a LOAD that fits memory is the font, the program at 0x200, and 0 elsewhere (R37, R51, R171). -/
theorem State.loaded_mem_read (s : State) (prog : List Byte) (a : Nat) :
    (s.loaded prog).mem.read a =
      if a < 80 then fontTable.getD a 0
      else if 0x200 ≤ a ∧ a < 0x200 + prog.length then prog.getD (a - 0x200) 0
      else 0 := by
  change (State.reset.mem.writeBytes 0x200 prog).read a = _
  rw [Memory.read_writeBytes, reset_mem_read]
  by_cases hfont : a < 80
  · rw [if_neg (by omega), if_pos hfont, if_pos hfont]
  · rw [if_neg hfont, if_neg hfont]

/-- Settles O36: a LOAD that fits is the reset state with the program written over its memory and `SPEED` kept. -/
theorem loadResetsTheMachine : Obligations.LoadResetsTheMachine := by
  intro s prog
  refine ⟨fun hlong => congrArg _ (State.load_of_not_fits (Nat.not_le.2 hlong)), fun hfits => ?_⟩
  obtain ⟨-, hpc, hv, hi, hsp, hstack, hdt, hst, hfb, hkey, hwaiting, hreg, hfault, hbase, -⟩ := resetHasTheSpecValues
  exact ⟨s.loaded prog, congrArg _ (State.load_of_fits hfits), s.loaded_mem_read prog, hpc, hv, hi, hsp, hstack, hdt, hst, hfb,
    hkey, hwaiting, hreg, hfault, hbase, rfl⟩

/-! ## Keys, speed, pixel query -/

/-- A PRESS while the machine does not wait only sets the key's bit (R172). -/
theorem State.press_of_not_waiting {s : State} (h : s.waiting = false) (k : Nibble) :
    s.press k = { s with key := s.key.set k.toNat true } := by
  simp [State.press, h]

/-- A PRESS while the machine waits also stores the key in the awaited register and ends the wait (R172). -/
theorem State.press_of_waiting {s : State} (h : s.waiting = true) (k : Nibble) :
    s.press k =
      { s.writeV s.waitReg (k.setWidth 8) with key := s.key.set k.toNat true, waiting := false } := by
  simp [State.press, h, State.writeV]

/-- Settles O38. -/
theorem keyEventsUpdateTheLatch : Obligations.KeyEventsUpdateTheLatch := by
  intro s k
  refine ⟨fun h => ?_, fun h => ?_, rfl⟩
  · rw [hostStep, State.press_of_not_waiting h]
  · rw [hostStep, State.press_of_waiting h]
    refine ⟨_, rfl, rfl, fun r => ?_⟩
    rw [BitVec.ofNat_toNat]
    exact s.readV_writeV s.waitReg (k.setWidth 8) r

/-- Settles O39. -/
theorem speedAndPixelOperations : Obligations.SpeedAndPixelOperations := fun _ _ _ _ => ⟨rfl, rfl⟩

end Sys2Proof.Machine
end

section
/-! Exceptions (60_exceptions.md): the fault of a word that matches no row (R191), and the state only the host changes (R202). -/

namespace Sys2Proof.Machine

/-! ## The decode fault -/

/-- Settles O8: a word that matches no row decodes as illegal, and the step records it after the advance. -/
theorem illegalWordFaults : Obligations.IllegalWordFaults := by
  intro s op hfault hwait hpc hop hnone
  have hopen : s.slotOpen = true := s.slotOpen_iff.2 ⟨hfault, hwait⟩
  have hfetch : s.fetch = some op := (s.fetch_inRange hpc).trans (congrArg some hop.symm)
  have hillegal : decode op = .invalidOpcode op := (decode_invalidOpcode_iff op op).2 ⟨rfl, hnone⟩
  exact step_of_decode_invalidOpcode hopen hfetch hillegal

/-! ## What only the host changes -/

/-- No effect of an instruction reaches `KEY`, `SPEED` or the scheduler baseline (R20, R202): the field laws of each update. -/
theorem Effect.sameHostState {i : Instr} {s t : State} (e : Effect i s t) : s.SameHostState t := by
  cases e with
  | returned | stored | waits | setDelay | setSound => exact ⟨rfl, rfl, rfl, rfl⟩
  | _ => simp [State.SameHostState]

/-- Settles O53: a step leaves the state alone, raises a fault, or does an effect of its instruction, before which only `PC` has
advanced. -/
theorem stepKeepsHostState : Obligations.StepKeepsHostState := by
  intro s t h
  rcases step_cases s with ⟨-, hs⟩ | ⟨-, -, hs⟩ | ⟨_, _, -, -, -, hs⟩ | ⟨_, i, -, -, -, hs⟩ <;> rw [hs] at h
  · cases h
    exact ⟨rfl, rfl, rfl, rfl⟩
  · cases h
    exact ⟨rfl, rfl, rfl, rfl⟩
  · cases h
    exact ⟨rfl, rfl, rfl, rfl⟩
  · exact (effect_of_exec h).sameHostState

end Sys2Proof.Machine
end

section
/-! The model's own choices, no rules of the spec: where it stops by itself (assumption log 8, 6), and the reach of its counter `draws`
(assumption log 4). -/

namespace Sys2Proof.Machine

open Host (Outcome)

/-! ## The model's own stops -/

/-- RET has no entry to pop where `SP` is above 16 (R26). -/
theorem exec_ret_stops {s : State} (h : 16 < s.sp.toNat) : exec .ret s = .fault .stackPointerOutOfRange := by
  have hne : s.sp ≠ 0 := fun h0 => by simp [h0] at h
  change execRet s = _
  rw [execRet, if_neg hne, s.popPc_of_illegal (.inr h)]

/-- CALL has no entry to push to where `SP` is above 16 (R26). -/
theorem exec_call_stops {s : State} (nnn : Addr) (h : 16 < s.sp.toNat) :
    exec (.call nnn) s = .fault .stackPointerOutOfRange := by
  have hne : s.sp ≠ 16 := fun h16 => by simp [h16] at h
  change execCall nnn s = _
  rw [execCall, if_neg hne, s.pushPc_of_ge h.le]

theorem State.advance_of_backward {s : State} {now : Time} (hbase : s.hasBaseline = true) (hlt : now < s.lastTime) :
    s.advance now = .refused .timeRunsBackwards :=
  if_pos (Bool.and_eq_true_iff.2 ⟨hbase, decide_eq_true hlt⟩)

/-- Settles O11. -/
theorem modelStopsOutsideTheSpec : Obligations.ModelStopsOutsideTheSpec := fun _ nnn _ =>
  ⟨fun h => ⟨exec_ret_stops h, exec_call_stops nnn h⟩, State.advance_of_backward⟩

/-! ## The reach of the counter

Every operation but `State.rand` commutes with setting the counter, so an instruction that does not draw answers from the counter `d`
what it answers from `s.draws`, with `d` kept. -/

/-- `s` with its counter at `d`. -/
def State.withDraws (s : State) (d : Nat) : State := { s with draws := d }

/-- An answer with the counter of its next state at `d`; a stop has no counter. -/
def answerWithDraws (d : Nat) : Outcome State Fault Refusal → Outcome State Fault Refusal
  | .next t => .next (t.withDraws d)
  | .fault r => .fault r
  | .refused r => .refused r

section
variable (s : State) (d : Nat)

/-! ### The operations with a branch -/

theorem State.popPc_withDraws : (s.withDraws d).popPc = s.popPc.map (·.withDraws d) := by
  rw [State.popPc, State.popPc, apply_dite (Option.map _)]
  rfl

theorem State.pushPc_withDraws : (s.withDraws d).pushPc = s.pushPc.map (·.withDraws d) := by
  rw [State.pushPc, State.pushPc, apply_dite (Option.map _)]
  rfl

theorem State.memWrite_withDraws (a : Word) (bs : List Byte) :
    (s.withDraws d).memWrite a bs = (s.memWrite a bs).map (·.withDraws d) := by
  rw [State.memWrite, State.memWrite, apply_ite (Option.map _)]
  rfl

theorem State.skipIf_withDraws (cond : Bool) : (s.withDraws d).skipIf cond = (s.skipIf cond).withDraws d := by
  cases cond <;> rfl

theorem State.skipIfKey_withDraws (x : Nibble) (level : Bool) (op : Word) :
    (s.withDraws d).skipIfKey x level op = (s.skipIfKey x level op).withDraws d := by
  have hkey : (s.withDraws d).keyAt ((s.withDraws d).readV x) = s.keyAt (s.readV x) := rfl
  rw [State.skipIfKey, State.skipIfKey, hkey]
  cases s.keyAt (s.readV x) with
  | none => rfl
  | some down => exact s.skipIf_withDraws d _

theorem orAddressFault_withDraws {α : Type} (access : Option α) (op : Word) (goOn : α → State) :
    orAddressFault access op (s.withDraws d) (fun r => (goOn r).withDraws d) =
      (orAddressFault access op s goOn).withDraws d := by
  cases access <;> rfl

theorem State.store_withDraws (a : Word) (bs : List Byte) (op : Word) :
    orAddressFault ((s.withDraws d).memWrite a bs) op (s.withDraws d) (fun t => t) =
      (orAddressFault (s.memWrite a bs) op s fun t => t).withDraws d := by
  rw [s.memWrite_withDraws d]
  cases s.memWrite a bs <;> rfl

/-! ### The instructions -/

theorem execRet_withDraws : execRet (s.withDraws d) = answerWithDraws d (execRet s) := by
  rw [execRet, execRet, apply_ite (answerWithDraws d), s.popPc_withDraws d]
  cases s.popPc <;> rfl

theorem execCall_withDraws (nnn : Addr) : execCall nnn (s.withDraws d) = answerWithDraws d (execCall nnn s) := by
  rw [execCall, execCall, apply_ite (answerWithDraws d), s.pushPc_withDraws d]
  cases s.pushPc <;> rfl

/-- Row by row: no instruction but Cxkk draws, so the counter decides nothing and is handed on as it came. -/
theorem exec_withDraws {i : Instr} (hi : ∀ x kk, i ≠ .rnd x kk) :
    exec i (s.withDraws d) = answerWithDraws d (exec i s) := by
  cases i with
  | rnd x kk => exact absurd rfl (hi x kk)
  | ret => exact execRet_withDraws s d
  | call nnn => exact execCall_withDraws s d nnn
  | seImm | sneImm | seReg | sneReg => exact congrArg Outcome.next (s.skipIf_withDraws d _)
  | skp x => exact congrArg Outcome.next (s.skipIfKey_withDraws d x _ _)
  | sknp x => exact congrArg Outcome.next (s.skipIfKey_withDraws d x _ _)
  | ldB x => exact congrArg Outcome.next (s.store_withDraws d _ _ _)
  | stRegs x => exact congrArg Outcome.next (s.store_withDraws d _ _ _)
  | ldRegs x => exact congrArg Outcome.next (orAddressFault_withDraws s d _ _ s.loadFirstRegs)
  | drw x y n => exact congrArg Outcome.next (orAddressFault_withDraws s d _ _ fun rows =>
      s.afterDraw (drawSprite s.fb rows (s.readV x).toNat (s.readV y).toNat))
  | _ => rfl

end

/-- Settles O56: only Cxkk's effect moves the counter, and every other instruction commutes with setting it. -/
theorem drawsReachOnlyRandomBytes : Obligations.DrawsReachOnlyRandomBytes := by
  intro i s t d hi h
  constructor
  · by_contra hne
    obtain ⟨x, kk, hrnd⟩ := (effect_of_exec h).writes_draws hne
    exact hi x kk hrnd
  · change exec i (s.withDraws d) = answerWithDraws d (.next t)
    rw [exec_withDraws s d hi, h]

end Sys2Proof.Machine
end
